-- ==== Sys2Proof/Word.lean ====
section
/-! DEFINITION. The word, the byte and the four bytes of one transaction (00_scope.md R6, R8; 20_memory.md R51). -/

namespace Sys2Proof

/-- A 32-bit quantity: a register, an address, a size, an offset (00_scope.md R6, R8). -/
abbrev Word := BitVec 32

/-- One byte of a transaction or of the upstream memory (10_state.md R39). -/
abbrev Byte := BitVec 8

/-- The data `d[0..3]` of one upstream transaction, `b0` the byte at the lowest address
(20_memory.md R51). Every upstream transaction has exactly four bytes (R57). -/
structure Quad where
  b0 : Byte
  b1 : Byte
  b2 : Byte
  b3 : Byte
  deriving DecidableEq, Repr

/-- The four bytes in ascending address order. -/
abbrev Quad.toList (d : Quad) : List Byte := [d.b0, d.b1, d.b2, d.b3]

end Sys2Proof
end

