-- ==== Sys2Proof/Config.lean ====
section
/-! DEFINITION. What an instance of the block is built with (00_scope.md R7, 92_eei_decisions.md "Open parameters"),
and the free value the spec leaves under no law. -/

namespace Sys2Proof

/-- BYTE_ORDER: how the four data bytes of a register write form the register value (20_memory.md R53). -/
inductive ByteOrder where
  | little
  | big
  deriving DecidableEq, Repr

/-- The parameters the spec leaves open (00_scope.md R7). They are plain data carried in the state, no operation changes
them, and a statement about every state is a statement about every choice of them. -/
structure Config where
  /-- DMA_BASE: the bus address of window offset 0x00 (R7, 20_memory.md R60). -/
  dmaBase   : Word
  /-- BYTE_ORDER (20_memory.md R53). -/
  byteOrder : ByteOrder
  /-- Where MAPPED(addr, 4) is false: inclusive ranges of start addresses the platform does not service
  (20_memory.md R69). -/
  unserved  : List (Word × Word)
  deriving DecidableEq, Repr

/-- The constraint on DMA_BASE: the window does not wrap around the top of the address space (20_memory.md R60). -/
abbrev Config.wf (cfg : Config) : Prop := cfg.dmaBase ≤ 0xFFFFFFE0

/-- The parameters used in every example of the spec (95_test_vectors.md section 0): the base is an example value, the
byte order the spec's default, every address is serviced. DESIGN CHOICE (log 1, log 2): which instance `State.reset` is. -/
def Config.reference : Config := ⟨0x40000000, .little, []⟩

/-- A byte about which nothing is claimed: the `n`-th byte drawn in a run. It answers a read of the register window
(40_register_window.md R124) and an upstream read that the platform does not service (20_memory.md R69). It has no
body, so no proof can see its value (log 9). -/
opaque Config.freeByte : Nat → Byte

end Sys2Proof
end

