-- ==== Sys2Proof/Syntax.lean ====
section
/-! DEFINITION. The operations of the block (30_encoding.md R80), what an operation's encoded form is (R81, R85, R87, R88,
R89), and the stimuli the environment presents (00_scope.md R12). -/

namespace Sys2Proof

/-- The channel index `c` (00_scope.md R6, R9). -/
inductive Chan where
  | ch1
  | ch2
  deriving DecidableEq, Repr

/-- The four registers of one channel's window (10_state.md R21 to R24). -/
inductive Reg where
  | source
  | target
  | size
  | control
  deriving DecidableEq, Repr

/-- The three operations one evaluation of a channel chooses from (30_encoding.md R87). -/
inductive TickOp where
  | latch
  | step
  | signal
  deriving DecidableEq, Repr

/-- The classes of operations (30_encoding.md R80). -/
inductive Format where
  | regwr
  | regrd
  | tick
  | reset
  | up
  deriving DecidableEq, Repr

/-- The operations: one constructor per row of the opcode table (30_encoding.md R80). -/
inductive Instr where
  /-- `WR.SOURCE1` (R112). -/
  | wrSource1 (v : Word)
  /-- `WR.TARGET1` (R113). -/
  | wrTarget1 (v : Word)
  /-- `WR.SIZE1` (R114). -/
  | wrSize1 (v : Word)
  /-- `WR.CONTROL1` (R115). -/
  | wrControl1 (v : Word)
  /-- `WR.SOURCE2` (R116). -/
  | wrSource2 (v : Word)
  /-- `WR.TARGET2` (R117). -/
  | wrTarget2 (v : Word)
  /-- `WR.SIZE2` (R118). -/
  | wrSize2 (v : Word)
  /-- `WR.CONTROL2` (R119). -/
  | wrControl2 (v : Word)
  /-- `WR.NOP` (R120, R121): a write at window offset `off` of the bytes `data`, `len` being their number. -/
  | wrNop (off : Word) (data : List Byte)
  /-- `RD` (R124): a read of `len` bytes at bus address `addr`. -/
  | rd (addr : Word) (len : Nat)
  /-- `TICK` (R140). -/
  | tick
  /-- `LATCH1` (R142). -/
  | latch1
  /-- `STEP1` (R144). -/
  | step1
  /-- `SIGNAL1` (R146). -/
  | signal1
  /-- `LATCH2` (R143). -/
  | latch2
  /-- `STEP2` (R145). -/
  | step2
  /-- `SIGNAL2` (R147). -/
  | signal2
  /-- `RESET.ASSERT` (R240). -/
  | resetAssert
  /-- `RESET.RELEASE` (R242). -/
  | resetRelease
  /-- `UPRD` (R189): the upstream read of channel `c`. Its address is `E[c].SOURCE +32 OFFSET[c]`, its length 4. -/
  | uprd (c : Chan)
  /-- `UPWR` (R190): the upstream write of channel `c` of the four bytes `d` of the paired `UPRD`. Its address is
  `E[c].TARGET +32 OFFSET[c]`, its length 4. -/
  | upwr (c : Chan) (d : Quad)
  deriving DecidableEq, Repr

/-- The encoded form of an operation: what selects it. The block has no instruction words (30_encoding.md, opening). -/
inductive Frame where
  /-- REGWR (R81): `(WRITE, addr, len, d[0..len-1])` with `len` the number of bytes in `data`. -/
  | write (addr : Word) (data : List Byte)
  /-- REGRD (R85): `(READ, addr, len)`. -/
  | read (addr : Word) (len : Nat)
  /-- A clock tick (R93). -/
  | tick
  /-- TICK (R87): the selector `sel` of channel `c`, bit 1 `E[c].CTRL`, bit 0 `OFFSET[c] <u E[c].SIZE`. -/
  | select (c : Chan) (sel : BitVec 2)
  /-- RESET (R89): the reset input goes to `level`, true meaning asserted. -/
  | resetLine (level : Bool)
  /-- UP (R88), the read of channel `c`'s pair. -/
  | upRead (c : Chan)
  /-- UP (R88), the write of channel `c`'s pair, with its four bytes. -/
  | upWrite (c : Chan) (d : Quad)
  deriving DecidableEq, Repr

/-- What an agent presents to the block (00_scope.md R12). -/
inductive Stimulus where
  /-- A downstream write transaction. -/
  | write (addr : Word) (data : List Byte)
  /-- A downstream read transaction. -/
  | read (addr : Word) (len : Nat)
  /-- A clock tick. -/
  | tick
  /-- The reset input goes to `level`. -/
  | resetLine (level : Bool)
  /-- One channel's evaluation of a tick, taken alone. No agent of R12 presents it: it exists so that a row LATCHc, STEPc
  or SIGNALc of the opcode table can be run by itself (DESIGN CHOICE, log 4). -/
  | eval (c : Chan)
  deriving DecidableEq, Repr

end Sys2Proof
end

