-- ==== Sys2Proof/WellFormed.lean ====
section
/-! DEFINITION. Which operations are well formed. -/

namespace Sys2Proof

/-- The eight window offsets that select a register (10_state.md R25, 20_memory.md R55). -/
def recognisedOffsets : List Word := [0x00, 0x04, 0x08, 0x0C, 0x10, 0x14, 0x18, 0x1C]

/-- `WR.NOP` stands for exactly the writes that are none of the eight register writes: a length other than 4 or an
unrecognised offset (30_encoding.md R86). Every other operation is well formed with every operand. -/
def Instr.wf : Instr → Bool
  | .wrNop off data => data.length != 4 || !recognisedOffsets.contains off
  | .wrSource1 _ | .wrTarget1 _ | .wrSize1 _ | .wrControl1 _ => true
  | .wrSource2 _ | .wrTarget2 _ | .wrSize2 _ | .wrControl2 _ => true
  | .rd _ _ | .tick => true
  | .latch1 | .step1 | .signal1 | .latch2 | .step2 | .signal2 => true
  | .resetAssert | .resetRelease => true
  | .uprd _ | .upwr _ _ => true

end Sys2Proof
end

