-- ==== Sys2Proof/Decode.lean ====
section
/-! DEFINITION. The decoder (30_encoding.md R93), total on every frame, and the encoder, from the same tables. The decoder
rejects no input: every possible input selects exactly one operation (R93). The one rejection by name is of a numbered
table word that encodes nothing (`decodeTableWord`). -/

namespace Sys2Proof

/-- The 32-bit value of a register write's four data bytes (20_memory.md R53, 30_encoding.md R83). -/
def regValue (order : ByteOrder) (d : Quad) : Word :=
  match order with
  | .little => BitVec.ofNat 32 (d.b0.toNat + 2 ^ 8 * d.b1.toNat + 2 ^ 16 * d.b2.toNat + 2 ^ 24 * d.b3.toNat)
  | .big => BitVec.ofNat 32 (d.b3.toNat + 2 ^ 8 * d.b2.toNat + 2 ^ 16 * d.b1.toNat + 2 ^ 24 * d.b0.toNat)

/-- The channel select `ch = off[4]` (30_encoding.md R81). -/
def chanOfBit : Bool → Chan
  | false => .ch1
  | true => .ch2

/-- The register select `reg = off[3:2]` (30_encoding.md R81). -/
def regOfBits (reg : BitVec 2) : Reg :=
  if reg = 0 then .source else if reg = 1 then .target else if reg = 2 then .size else .control

/-- The register a window offset selects: `hi = off[31:5]` and `lo = off[1:0]` must be 0 (30_encoding.md R81). -/
def selectReg (off : Word) : Option (Chan × Reg) :=
  if off.extractLsb' 5 27 = 0 ∧ off.extractLsb' 0 2 = 0 then
    some (chanOfBit (off.getLsbD 4), regOfBits (off.extractLsb' 2 2))
  else none

/-- The register write of `(ch, reg)` (30_encoding.md R82). -/
def wrInstr (c : Chan) (r : Reg) (v : Word) : Instr :=
  match c, r with
  | .ch1, .source => .wrSource1 v
  | .ch1, .target => .wrTarget1 v
  | .ch1, .size => .wrSize1 v
  | .ch1, .control => .wrControl1 v
  | .ch2, .source => .wrSource2 v
  | .ch2, .target => .wrTarget2 v
  | .ch2, .size => .wrSize2 v
  | .ch2, .control => .wrControl2 v

/-- A downstream write at window offset `off` (30_encoding.md R81, R86, R93). -/
def decodeWrite (order : ByteOrder) (off : Word) (data : List Byte) : Instr :=
  match data with
  | [b0, b1, b2, b3] =>
    match selectReg off with
    | some (c, r) => wrInstr c r (regValue order ⟨b0, b1, b2, b3⟩)
    | none => .wrNop off data
  | _ => .wrNop off data

/-- The operation a tick selector chooses: 0b00 and 0b01 LATCH, 0b11 STEP, 0b10 SIGNAL (30_encoding.md R87). -/
def decodeSel (sel : BitVec 2) : TickOp :=
  if sel = 3 then .step else if sel = 2 then .signal else .latch

/-- The row of channel `c` for a tick operation (30_encoding.md R80). -/
def tickInstr (c : Chan) (op : TickOp) : Instr :=
  match c, op with
  | .ch1, .latch => .latch1
  | .ch1, .step => .step1
  | .ch1, .signal => .signal1
  | .ch2, .latch => .latch2
  | .ch2, .step => .step2
  | .ch2, .signal => .signal2

/-- The decoder (30_encoding.md R93). -/
def decode (cfg : Config) : Frame → Instr
  | .write addr data => decodeWrite cfg.byteOrder (addr - cfg.dmaBase) data
  | .read addr len => .rd addr len
  | .tick => .tick
  | .select c sel => tickInstr c (decodeSel sel)
  | .resetLine true => .resetAssert
  | .resetLine false => .resetRelease
  | .upRead c => .uprd c
  | .upWrite c d => .upwr c d

/-- The window offset of register `r` of channel `c` (30_encoding.md R82, Table T82). -/
def regOffset : Chan → Reg → Word
  | .ch1, .source => 0x00
  | .ch1, .target => 0x04
  | .ch1, .size => 0x08
  | .ch1, .control => 0x0C
  | .ch2, .source => 0x10
  | .ch2, .target => 0x14
  | .ch2, .size => 0x18
  | .ch2, .control => 0x1C

/-- Byte `k` of a value, `k = 0` the least significant. -/
def valueByte (v : Word) (k : Nat) : Byte := BitVec.ofNat 8 (v.toNat / 2 ^ (8 * k))

/-- The four data bytes that carry a register value (20_memory.md R53). -/
def regBytes (order : ByteOrder) (v : Word) : Quad :=
  match order with
  | .little => ⟨valueByte v 0, valueByte v 1, valueByte v 2, valueByte v 3⟩
  | .big => ⟨valueByte v 3, valueByte v 2, valueByte v 1, valueByte v 0⟩

/-- The transaction that writes `v` to register `r` of channel `c` (30_encoding.md R91). -/
def encodeReg (cfg : Config) (c : Chan) (r : Reg) (v : Word) : Frame :=
  .write (cfg.dmaBase + regOffset c r) (regBytes cfg.byteOrder v).toList

/-- The encoder. LATCHc is written with selector 0b00, whose bit 0 is free (30_encoding.md R87). -/
def encode (cfg : Config) : Instr → Frame
  | .wrSource1 v => encodeReg cfg .ch1 .source v
  | .wrTarget1 v => encodeReg cfg .ch1 .target v
  | .wrSize1 v => encodeReg cfg .ch1 .size v
  | .wrControl1 v => encodeReg cfg .ch1 .control v
  | .wrSource2 v => encodeReg cfg .ch2 .source v
  | .wrTarget2 v => encodeReg cfg .ch2 .target v
  | .wrSize2 v => encodeReg cfg .ch2 .size v
  | .wrControl2 v => encodeReg cfg .ch2 .control v
  | .wrNop off data => .write (cfg.dmaBase + off) data
  | .rd addr len => .read addr len
  | .tick => .tick
  | .latch1 => .select .ch1 0b00
  | .step1 => .select .ch1 0b11
  | .signal1 => .select .ch1 0b10
  | .latch2 => .select .ch2 0b00
  | .step2 => .select .ch2 0b11
  | .signal2 => .select .ch2 0b10
  | .resetAssert => .resetLine true
  | .resetRelease => .resetLine false
  | .uprd c => .upRead c
  | .upwr c d => .upWrite c d

/-- The class of an operation (30_encoding.md R80). -/
def Instr.format : Instr → Format
  | .wrSource1 _ | .wrTarget1 _ | .wrSize1 _ | .wrControl1 _ => .regwr
  | .wrSource2 _ | .wrTarget2 _ | .wrSize2 _ | .wrControl2 _ => .regwr
  | .wrNop _ _ => .regwr
  | .rd _ _ => .regrd
  | .tick | .latch1 | .step1 | .signal1 | .latch2 | .step2 | .signal2 => .tick
  | .resetAssert | .resetRelease => .reset
  | .uprd _ | .upwr _ _ => .up

/-- The class a frame belongs to (30_encoding.md R80). -/
def Frame.format : Frame → Format
  | .write _ _ => .regwr
  | .read _ _ => .regrd
  | .tick | .select _ _ => .tick
  | .resetLine _ => .reset
  | .upRead _ | .upWrite _ _ => .up

/-- The frame that a numbered word of opcode_table.json stands for (log 6). A 32-bit word is a window offset, the word
the register rows' match and mask apply to, in a 4-byte write whose data bytes are 0. An 8-bit word below 4 is a tick
selector; the table's word does not carry the channel number, and it is read as channel 1's (DEDUCED). No other row has a
word. -/
def tableFrame (cfg : Config) (nbits w : Nat) : Option Frame :=
  if nbits = 32 ∧ w < 2 ^ 32 then some (.write (cfg.dmaBase + BitVec.ofNat 32 w) [0, 0, 0, 0])
  else if nbits = 8 ∧ w < 4 then some (.select .ch1 (BitVec.ofNat 2 w))
  else none

/-- The instruction the decoder reads from a numbered word of opcode_table.json. The offset is relative to the window, so
the result is the same for every base. -/
def decodeTableWord (nbits w : Nat) : Option Instr :=
  (tableFrame Config.reference nbits w).map (decode Config.reference)

end Sys2Proof
end

