-- ==== Sys2Proof/Machine/State.lean ====
section
/-! DEFINITION. The state of the block (10_state.md R20), its environment held as plain data, the two ways a step can
stop, and the state after reset. -/

namespace Sys2Proof.Machine

/-- No fault exists: the block raises no exception, fault or error response under any input (60_exceptions.md R210). No
definition raises one; safe or unsafe does not arise (log 22). -/
inductive Fault where
  deriving DecidableEq, Repr

/-- Why the model declines a transition. -/
inductive Refusal where
  /-- An operation with no meaning yet, raised by an arm of `exec` alone. Safe: the model stops. -/
  | notModelled (mnemonic : String)
  /-- The source or target range of a transfer includes an address of the block's own register window (20_memory.md R68,
  U7). Raised by the `LATCH1` or `LATCH2` that would arm such a transfer, by the upstream operations of `UPRD` and `UPWR`
  and hence by `STEP1` and `STEP2`, and by the `TICK` that performs one of these. Safe: the model stops where the spec
  defines no behaviour (log 11). -/
  | ownWindow
  deriving DecidableEq, Repr

/-- The four window registers `W[c]` of a channel (10_state.md R21 to R24). -/
structure Window where
  source  : Word
  target  : Word
  size    : Word
  control : Word
  deriving DecidableEq, Repr

/-- The engine's working copies `E[c]` (10_state.md R26 to R29). -/
structure Engine where
  source : Word
  target : Word
  size   : Word
  ctrl   : Bool
  deriving DecidableEq, Repr

/-- The ten elements of one channel (10_state.md R20). -/
structure Channel where
  win    : Window
  eng    : Engine
  /-- `OFFSET[c]` (R30). -/
  offset : Word
  /-- `IRQ[c]` (R31), the level of the channel's interrupt output (42_interrupt_latch.md R170). -/
  irq    : Bool
  deriving DecidableEq, Repr

/-- A channel after reset: every element zero or false (10_state.md R33). -/
def Channel.reset : Channel := ⟨⟨0, 0, 0, 0⟩, ⟨0, 0, 0, false⟩, 0, false⟩

/-- The answer to a downstream transaction: `OK` is the only value (43_bus_sequencer.md R187). -/
inductive Status where
  | ok
  deriving DecidableEq, Repr

/-- An event of the history a model may keep (43_bus_sequencer.md R195). -/
inductive Event where
  | dnWrite (addr : Word) (data : List Byte) (status : Status)
  | dnRead (addr : Word) (len : Nat) (status : Status) (data : List Byte)
  | upRead (c : Chan) (addr : Word) (d : Quad)
  | upWrite (c : Chan) (addr : Word) (d : Quad)
  | irq (c : Chan) (level : Bool)
  | resetAssert
  | resetRelease
  deriving DecidableEq, Repr

/-- The upstream memory (20_memory.md R50, R70): address and byte pairs, addresses strictly rising, no entry equal to what
an unlisted address reads as. -/
abbrev Memory := List Host.Cell

/-- What the upstream platform does at one upstream transaction of the block: the bytes other masters write before it is
serviced, in order (20_memory.md R66), and whether it is serviced (R69). -/
structure Turn where
  others   : List (Word × Byte)
  serviced : Bool
  deriving DecidableEq, Repr

/-- The whole state. -/
structure State where
  /-- Channel 1 (10_state.md R20). -/
  ch1     : Channel
  /-- Channel 2 (10_state.md R20). -/
  ch2     : Channel
  /-- `IN_RESET` (10_state.md R32). -/
  inReset : Bool
  /-- The parameters of this instance (00_scope.md R7); no operation changes them. -/
  cfg     : Config
  /-- The upstream memory, outside the block (20_memory.md R50). -/
  mem     : Memory
  /-- What the platform does at the coming upstream transactions, the next one first; none left means no other master and
  every transaction serviced (log 8). -/
  turns   : List Turn
  /-- The stimuli still to be presented, the next one first; none left means a clock tick (log 3). -/
  inputs  : List Stimulus
  /-- How many free bytes have been drawn (log 9). -/
  draws   : Nat
  /-- The event history, newest first (43_bus_sequencer.md R195, log 12). -/
  history : List Event
  deriving DecidableEq, Repr

/-- The state right after reset, `IN_RESET` false (10_state.md R32, R33; 70_reset_and_hazards.md R245). The parameters and
the environment's part are the model's choice (log 1, 2, 3, 7, 8, 9). -/
def State.reset : State where
  ch1 := Channel.reset
  ch2 := Channel.reset
  inReset := false
  cfg := Config.reference
  mem := []
  turns := []
  inputs := []
  draws := 0
  history := []

end Sys2Proof.Machine
end

