-- ==== Sys2Proof/Machine/Flags.lean ====
section
/-! DEFINITION. The conditions the block computes: the three logical states of a channel (00_scope.md R11), the tick
selector (30_encoding.md R87) and the test of a CONTROL value (30_encoding.md R84). The block has no flag-setting
arithmetic (41_transfer_engine.md R152). -/

namespace Sys2Proof.Machine

/-- `OFFSET[c] <u E[c].SIZE`, unsigned (41_transfer_engine.md R152). -/
def Channel.below (ch : Channel) : Bool := ch.offset.ult ch.eng.size

/-- Unconfigured: `E[c].CTRL = false` (00_scope.md R11). -/
def Channel.unconfigured (ch : Channel) : Bool := !ch.eng.ctrl

/-- Active: `E[c].CTRL = true and OFFSET[c] <u E[c].SIZE` (00_scope.md R11). -/
def Channel.active (ch : Channel) : Bool := ch.eng.ctrl && ch.below

/-- Complete: `E[c].CTRL = true and OFFSET[c] >=u E[c].SIZE` (00_scope.md R11). -/
def Channel.complete (ch : Channel) : Bool := ch.eng.ctrl && !ch.below

/-- `sel = {E[c].CTRL, OFFSET[c] <u E[c].SIZE}`, bit 1 and bit 0 (30_encoding.md R87). -/
def Channel.sel (ch : Channel) : BitVec 2 := BitVec.ofBool ch.eng.ctrl ++ BitVec.ofBool ch.below

/-- Nonzero-is-true over all 32 bits of a CONTROL value (30_encoding.md R84). -/
def nonzero (v : Word) : Bool := v != 0

end Sys2Proof.Machine
end

