-- ==== Sys2Proof/Machine/Operands.lean ====
section
/-! DEFINITION. The operands: the two upstream addresses of a channel, the byte addresses of a transaction and the tests
of R68. All address arithmetic wraps modulo 2^32 (20_memory.md R61). -/

namespace Sys2Proof.Machine

/-- The address of a STEP's read, `E[c].SOURCE +32 OFFSET[c]` (20_memory.md R56, R61). -/
def Channel.readAddr (ch : Channel) : Word := ch.eng.source + ch.offset

/-- The address of a STEP's write, `E[c].TARGET +32 OFFSET[c]` (20_memory.md R56, R61). -/
def Channel.writeAddr (ch : Channel) : Word := ch.eng.target + ch.offset

/-- The byte address lies in the register window `DMA_BASE .. DMA_BASE + 0x1F` (10_state.md R39). -/
def inWindow (cfg : Config) (a : Word) : Bool := (a - cfg.dmaBase).ult 0x20

/-- One of the four bytes of an upstream transaction at `a` lies in the block's own window (20_memory.md R68). -/
def touchesWindow (cfg : Config) (a : Word) : Bool :=
  inWindow cfg a || inWindow cfg (a + 1) || inWindow cfg (a + 2) || inWindow cfg (a + 3)

/-- The length of a transfer in bytes, SIZE rounded up to a multiple of 4 (20_memory.md R68, 41_transfer_engine.md
R150). -/
def Engine.length (e : Engine) : Nat := (e.size.toNat + 3) / 4 * 4

/-- One of the `n` byte addresses from `a` on lies in the register window: `a` itself does, or the window's first byte is
among them. -/
def rangeMeetsWindow (cfg : Config) (a : Word) (n : Nat) : Bool :=
  decide (0 < n) && (inWindow cfg a || decide ((cfg.dmaBase - a).toNat < n))

/-- The source or the target range of a configuration includes an address of the block's own window, the configurations a
model refuses (20_memory.md R68). Excepted are the sizes above 0xFFFFFFFC, which 41_transfer_engine.md R151 treats as
93_implementation_defined.md U4 says, the transfer that never ends: of these the single access is refused (log 11). -/
def Engine.meetsWindow (cfg : Config) (e : Engine) : Bool :=
  decide (e.size ≤ 0xFFFFFFFC) &&
    (rangeMeetsWindow cfg e.source e.length || rangeMeetsWindow cfg e.target e.length)

/-- `MAPPED(addr, 4)`: the platform services a transaction at this start address (00_scope.md R7, 20_memory.md R69). -/
def mapped (cfg : Config) (a : Word) : Bool :=
  cfg.unserved.all fun range => a.ult range.1 || range.2.ult a

/-- The bus address of a register (10_state.md R25). -/
def regAddr (cfg : Config) (off : Word) : Word := cfg.dmaBase + off

end Sys2Proof.Machine
end

