-- ==== Sys2Proof/Machine/Ops.lean ====
section
/-! DEFINITION. The named operations over registers, the upstream memory, the two bus ports, the interrupt lines and
reset. The operations of the opcode table are short combinations of these. -/

namespace Sys2Proof.Machine

/-! ### The upstream memory -/

/-- What an address that memory does not list reads as. DESIGN CHOICE (log 7): 0x00, the convention of 95_test_vectors.md
section 0; the spec leaves the contents to the environment (20_memory.md R50). -/
def Memory.unlisted : Byte := 0

/-- The byte at an address. -/
def Memory.read (m : Memory) (a : Nat) : Byte :=
  match m with
  | [] => Memory.unlisted
  | (k, b) :: rest => if k = a then b else Memory.read rest a

/-- Put an entry in front, unless the byte is what an unlisted address reads as. -/
def Memory.cons (a : Nat) (b : Byte) (m : Memory) : Memory :=
  if b = Memory.unlisted then m else (a, b) :: m

/-- Write one byte, keeping the canonical form. -/
def Memory.write (m : Memory) (a : Nat) (b : Byte) : Memory :=
  match m with
  | [] => Memory.cons a b []
  | (k, v) :: rest =>
    if a < k then Memory.cons a b ((k, v) :: rest)
    else if a = k then Memory.cons a b rest
    else (k, v) :: Memory.write rest a b

/-- Addresses strictly rising from `low` and inside the 32-bit space, no entry equal to the unlisted byte. -/
def Memory.wfFrom (low : Nat) (m : Memory) : Bool :=
  match m with
  | [] => true
  | (k, b) :: rest => decide (low ≤ k) && decide (k < 2 ^ 32) && (b != Memory.unlisted) && Memory.wfFrom (k + 1) rest

/-- The canonical form: equal memories are equal lists. -/
def Memory.wf (m : Memory) : Bool := Memory.wfFrom 0 m

/-- The byte at a 32-bit bus address. -/
def Memory.byte (m : Memory) (a : Word) : Byte := m.read a.toNat

/-- Write the byte at a 32-bit bus address. -/
def Memory.setByte (m : Memory) (a : Word) (b : Byte) : Memory := m.write a.toNat b

/-- `d[k]` is the byte at `a +32 k` (20_memory.md R51, R70). -/
def Memory.readQuad (m : Memory) (a : Word) : Quad :=
  ⟨m.byte a, m.byte (a + 1), m.byte (a + 2), m.byte (a + 3)⟩

/-- `M[a +32 k] <- d[k]` (20_memory.md R70). -/
def Memory.writeQuad (m : Memory) (a : Word) (d : Quad) : Memory :=
  (((m.setByte a d.b0).setByte (a + 1) d.b1).setByte (a + 2) d.b2).setByte (a + 3) d.b3

/-- The writes of other masters, in order (20_memory.md R66). -/
def Memory.applyOthers (m : Memory) (writes : List (Word × Byte)) : Memory :=
  match writes with
  | [] => m
  | (a, b) :: rest => Memory.applyOthers (m.setByte a b) rest

/-! ### Registers and the history -/

/-- The elements of channel `c`. -/
def State.chan (s : State) : Chan → Channel
  | .ch1 => s.ch1
  | .ch2 => s.ch2

/-- Replace the elements of channel `c`. -/
def State.setChan (s : State) (c : Chan) (ch : Channel) : State :=
  match c with
  | .ch1 => { s with ch1 := ch }
  | .ch2 => { s with ch2 := ch }

/-- Add an event to the history (43_bus_sequencer.md R195). -/
def State.log (s : State) (e : Event) : State := { s with history := e :: s.history }

/-- `W[c].R <- v`, all 32 bits of one register (20_memory.md R54, R58). -/
def Channel.setReg (ch : Channel) (r : Reg) (v : Word) : Channel :=
  match r with
  | .source => { ch with win := { ch.win with source := v } }
  | .target => { ch with win := { ch.win with target := v } }
  | .size => { ch with win := { ch.win with size := v } }
  | .control => { ch with win := { ch.win with control := v } }

/-- The guard and the reset test of a register write (40_register_window.md R110, R111, R122). -/
def State.accepts (s : State) (c : Chan) : Bool := !s.inReset && !(s.chan c).active

/-! ### The downstream port -/

/-- The event of a downstream write at a window offset, answered `OK` whatever becomes of it (43_bus_sequencer.md
R187). -/
def dnWriteEvent (cfg : Config) (off : Word) (data : List Byte) : Event :=
  .dnWrite (regAddr cfg off) data .ok

/-- The event of the write of `v` to a register. -/
def regWriteEvent (cfg : Config) (c : Chan) (r : Reg) (v : Word) : Event :=
  dnWriteEvent cfg (regOffset c r) (regBytes cfg.byteOrder v).toList

/-- `RegWrite` for a recognised offset (40_register_window.md R110): the register takes the value unless the block is in
reset or the channel is Active; nothing else changes; the transaction is answered `OK` either way. -/
def State.regWrite (s : State) (c : Chan) (r : Reg) (v : Word) : State :=
  let answered := s.log (regWriteEvent s.cfg c r v)
  if s.accepts c then answered.setChan c ((s.chan c).setReg r v) else answered

/-- `n` bytes under no law, the next ones to be drawn (40_register_window.md R124). -/
def freeBytes (draws n : Nat) : List Byte := (List.range n).map fun k => Config.freeByte (draws + k)

/-- Four bytes under no law (20_memory.md R69). -/
def freeQuad (draws : Nat) : Quad :=
  ⟨Config.freeByte draws, Config.freeByte (draws + 1), Config.freeByte (draws + 2), Config.freeByte (draws + 3)⟩

/-! ### The upstream port -/

/-- Continue with the state of an outcome; a fault or a refusal stays. -/
def andThen {α β : Type} (o : Host.Outcome α Fault Refusal) (f : α → Host.Outcome β Fault Refusal) :
    Host.Outcome β Fault Refusal :=
  match o with
  | .next a => f a
  | .fault r => .fault r
  | .refused r => .refused r

/-- What the platform does at the next upstream transaction (log 8). -/
def State.nextTurn (s : State) : Turn := s.turns.headD ⟨[], true⟩

/-- The state in which the next upstream transaction is serviced: the writes of other masters that come before it have
landed (20_memory.md R66). -/
def State.openTurn (s : State) : State :=
  { s with mem := s.mem.applyOthers s.nextTurn.others, turns := s.turns.tail }

/-- The platform services the next upstream transaction at `a` (20_memory.md R69). -/
def State.services (s : State) (a : Word) : Bool := s.nextTurn.serviced && mapped s.cfg a

/-- The four bytes the next upstream read at `a` returns: the memory's, or bytes under no law when the platform does not
service it (20_memory.md R69). -/
def State.readData (s : State) (a : Word) : Quad :=
  if s.services a then s.openTurn.mem.readQuad a else freeQuad s.draws

/-- `MemRead(a, 4)` of channel `c` (00_scope.md R9, 43_bus_sequencer.md R189): the state after the transaction. -/
def State.afterRead (s : State) (c : Chan) (a : Word) : State :=
  { s.openTurn with
    draws := if s.services a then s.draws else s.draws + 4
    history := .upRead c a (s.readData a) :: s.history }

/-- `MemWrite(a, 4, d)` of channel `c` (00_scope.md R9, 43_bus_sequencer.md R190): the state after the transaction. A write
the platform does not service changes nothing (20_memory.md R69). -/
def State.afterWrite (s : State) (c : Chan) (a : Word) (d : Quad) : State :=
  { s.openTurn with
    mem := if s.services a then s.openTurn.mem.writeQuad a d else s.openTurn.mem
    history := .upWrite c a d :: s.history }

/-- The upstream transaction of channel `c` at `a` is refused: its configuration includes the block's own window, or the
access itself touches it (20_memory.md R68, log 11). -/
def State.refuses (s : State) (c : Chan) (a : Word) : Bool :=
  (s.chan c).eng.meetsWindow s.cfg || touchesWindow s.cfg a

/-- The upstream read of channel `c` at `E[c].SOURCE +32 OFFSET[c]` (43_bus_sequencer.md R189), where it is not refused. -/
def upRead (c : Chan) (s : State) : Host.Outcome State Fault Refusal :=
  if s.refuses c (s.chan c).readAddr then .refused .ownWindow
  else .next (s.afterRead c (s.chan c).readAddr)

/-- The upstream write of channel `c` at `E[c].TARGET +32 OFFSET[c]` (43_bus_sequencer.md R190), refused like the read. -/
def upWrite (c : Chan) (d : Quad) (s : State) : Host.Outcome State Fault Refusal :=
  if s.refuses c (s.chan c).writeAddr then .refused .ownWindow
  else .next (s.afterWrite c (s.chan c).writeAddr d)

/-! ### The interrupt lines -/

/-- The event of a line's change, none when the level stays (43_bus_sequencer.md R195). -/
def irqEvents (c : Chan) (before after : Bool) : List Event :=
  if before = after then [] else [.irq c after]

/-- Replace channel `c`, recording the change of its interrupt line if there is one. -/
def State.setChanIrq (s : State) (c : Chan) (ch : Channel) : State :=
  { s.setChan c ch with history := irqEvents c (s.chan c).irq ch.irq ++ s.history }

/-! ### The three tick operations of one channel (41_transfer_engine.md R142 to R147) -/

/-- LATCH: the working copies take the window's values, `E[c].CTRL` the truth of CONTROL; `OFFSET[c] <- 0`;
`IRQ[c] <- false` (R142, R143). -/
def Channel.latched (ch : Channel) : Channel where
  win := ch.win
  eng := ⟨ch.win.source, ch.win.target, ch.win.size, nonzero ch.win.control⟩
  offset := 0
  irq := false

/-- SIGNAL, what this block has for taking an interrupt and, when CONTROL holds 0, for returning from one
(60_exceptions.md R215, R216): `IRQ[c] <- true`; `E[c].CTRL <- (W[c].CONTROL != 0)`; nothing is saved or restored
(R146, R147). -/
def Channel.signalled (ch : Channel) : Channel :=
  { ch with eng := { ch.eng with ctrl := nonzero ch.win.control }, irq := true }

/-- STEP's register effect: `OFFSET[c] <- OFFSET[c] +32 4` (R144, R145). -/
def Channel.advanced (ch : Channel) : Channel := { ch with offset := ch.offset + 4 }

/-- The LATCH arms a transfer whose range includes the block's own window (20_memory.md R68). A LATCH that finds CONTROL 0
arms none, whatever the window registers hold. -/
def Channel.armsOwnWindow (cfg : Config) (ch : Channel) : Bool :=
  ch.latched.eng.ctrl && ch.latched.eng.meetsWindow cfg

/-- LATCHc. The configuration that 20_memory.md R68 excludes is refused as it is latched (log 11). -/
def latchOp (c : Chan) (s : State) : Host.Outcome State Fault Refusal :=
  if (s.chan c).armsOwnWindow s.cfg then .refused .ownWindow else .next (s.setChanIrq c (s.chan c).latched)

/-- SIGNALc. -/
def signalOp (c : Chan) (s : State) : State := s.setChanIrq c (s.chan c).signalled

/-- STEPc: the read, then the write of the bytes just read, then the advance of the offset, which both addresses are
computed before (R144, R145; 43_bus_sequencer.md R190). -/
def stepOp (c : Chan) (s : State) : Host.Outcome State Fault Refusal :=
  andThen (upRead c s) fun s1 =>
    andThen (upWrite c (s.readData (s.chan c).readAddr) s1) fun s2 =>
      .next (s2.setChan c (s2.chan c).advanced)

/-- The operation of channel `c` (41_transfer_engine.md R140). -/
def tickOp (c : Chan) (op : TickOp) (s : State) : Host.Outcome State Fault Refusal :=
  match op with
  | .latch => latchOp c s
  | .step => stepOp c s
  | .signal => .next (signalOp c s)

/-- The operation the channel's state selects (30_encoding.md R87). -/
def State.selected (s : State) (c : Chan) : TickOp := decodeSel (s.chan c).sel

/-- `EvalChannel(c)`: exactly one of the three operations, chosen from the state as the evaluation begins
(41_transfer_engine.md R140, R141). -/
def evalChannel (c : Chan) (s : State) : Host.Outcome State Fault Refusal := tickOp c (s.selected c) s

/-- A row LATCHc, STEPc or SIGNALc taken by itself. It is performed where the channel's state selects it outside reset
(30_encoding.md R87, 41_transfer_engine.md R157); elsewhere it is not performed and the state stays (DESIGN CHOICE,
log 5). -/
def rowOp (c : Chan) (op : TickOp) (s : State) : Host.Outcome State Fault Refusal :=
  if !s.inReset && s.selected c == op then tickOp c op s else .next s

/-- An upstream row taken by itself: the block issues one only while the channel is Active and outside reset
(43_bus_sequencer.md R197); elsewhere nothing is issued and the state stays (DESIGN CHOICE, log 5). -/
def upRow (c : Chan) (o : State → Host.Outcome State Fault Refusal) (s : State) : Host.Outcome State Fault Refusal :=
  if !s.inReset && (s.chan c).active then o s else .next s

/-! ### Reset (70_reset_and_hazards.md R240, R242) -/

/-- The events of the reset line's assertion: none when it was asserted already, else the assertion and the fall of the
lines that were true (43_bus_sequencer.md R195, log 12). -/
def resetEvents (s : State) : List Event :=
  if s.inReset then []
  else irqEvents .ch2 s.ch2.irq false ++ irqEvents .ch1 s.ch1.irq false ++ [.resetAssert]

/-- ResetAssert: every element of both channels zero and false, `IN_RESET` true; memory is not touched (R240). -/
def State.assertReset (s : State) : State :=
  { s with ch1 := Channel.reset, ch2 := Channel.reset, inReset := true, history := resetEvents s ++ s.history }

/-- ResetRelease: `IN_RESET` false; nothing else changes (R242). -/
def State.releaseReset (s : State) : State :=
  { s with inReset := false, history := if s.inReset then .resetRelease :: s.history else s.history }

/-! ### Presenting the next stimulus (00_scope.md R12, 30_encoding.md R93) -/

/-- The frame a stimulus is: an evaluation's selector is read from the channel's state (30_encoding.md R87). -/
def State.frameOf (s : State) : Stimulus → Frame
  | .write addr data => .write addr data
  | .read addr len => .read addr len
  | .tick => .tick
  | .resetLine level => .resetLine level
  | .eval c => .select c (s.chan c).sel

/-- The frame of the next transition: the next stimulus, or a clock tick when none is pending (log 3). -/
def State.nextFrame (s : State) : Frame :=
  match s.inputs with
  | [] => .tick
  | x :: _ => s.frameOf x

/-- The operation of the next transition. -/
def State.nextInstr (s : State) : Instr := decode s.cfg s.nextFrame

/-- The state with the next stimulus taken from the pending ones. -/
def State.takeInput (s : State) : State := { s with inputs := s.inputs.tail }

/-- Channel `c` in a state whose selector is `sel`; unchanged if it is so already. -/
def State.withSel (s : State) (c : Chan) (sel : BitVec 2) : State :=
  if (s.chan c).sel = sel then s
  else s.setChan c
    { s.chan c with
      eng := { (s.chan c).eng with ctrl := sel.getLsbD 1, size := if sel.getLsbD 0 then 4 else 0 }
      offset := 0 }

/-- Put a table word's frame where the next step takes its operation from (log 3, log 4, log 6). -/
def State.placeFrame (s : State) : Frame → State
  | .write addr data => { s with inputs := .write addr data :: s.inputs }
  | .read addr len => { s with inputs := .read addr len :: s.inputs }
  | .tick => { s with inputs := .tick :: s.inputs }
  | .select c sel => { s.withSel c sel with inputs := .eval c :: s.inputs }
  | .resetLine level => { s with inputs := .resetLine level :: s.inputs }
  | .upRead _ | .upWrite _ _ => s

end Sys2Proof.Machine
end

