-- ==== Sys2Proof/Machine/BusSequencer.lean ====
section
/-! DEFINITION. BusTransportPort: the two emitted transactions taken by themselves (43_bus_sequencer.md R189, R190). Inside
a STEP the same operations run as the pair of `stepOp`. -/

namespace Sys2Proof.Machine

/-- `UPRD` (R189). -/
def execUprd (c : Chan) (s : State) : Host.Outcome State Fault Refusal := upRow c (upRead c) s

/-- `UPWR` (R190). -/
def execUpwr (c : Chan) (d : Quad) (s : State) : Host.Outcome State Fault Refusal := upRow c (upWrite c d) s

end Sys2Proof.Machine
end

