-- ==== Sys2Proof/Machine/RegisterWindow.lean ====
section
/-! DEFINITION. RegisterWindow: the register writes, `WR.NOP` and `RD` (40_register_window.md). -/

namespace Sys2Proof.Machine

/-- `WR.SOURCE1` (R112). -/
def execWrSource1 (v : Word) (s : State) : Host.Outcome State Fault Refusal := .next (s.regWrite .ch1 .source v)

/-- `WR.TARGET1` (R113). -/
def execWrTarget1 (v : Word) (s : State) : Host.Outcome State Fault Refusal := .next (s.regWrite .ch1 .target v)

/-- `WR.SIZE1` (R114). -/
def execWrSize1 (v : Word) (s : State) : Host.Outcome State Fault Refusal := .next (s.regWrite .ch1 .size v)

/-- `WR.CONTROL1` (R115): it neither starts a transfer nor clears the line by itself. -/
def execWrControl1 (v : Word) (s : State) : Host.Outcome State Fault Refusal := .next (s.regWrite .ch1 .control v)

/-- `WR.SOURCE2` (R116). -/
def execWrSource2 (v : Word) (s : State) : Host.Outcome State Fault Refusal := .next (s.regWrite .ch2 .source v)

/-- `WR.TARGET2` (R117). -/
def execWrTarget2 (v : Word) (s : State) : Host.Outcome State Fault Refusal := .next (s.regWrite .ch2 .target v)

/-- `WR.SIZE2` (R118). -/
def execWrSize2 (v : Word) (s : State) : Host.Outcome State Fault Refusal := .next (s.regWrite .ch2 .size v)

/-- `WR.CONTROL2` (R119). -/
def execWrControl2 (v : Word) (s : State) : Host.Outcome State Fault Refusal := .next (s.regWrite .ch2 .control v)

/-- `WR.NOP` (R120, R121): changes nothing, answered `OK`. -/
def execWrNop (off : Word) (data : List Byte) (s : State) : Host.Outcome State Fault Refusal :=
  .next (s.log (dnWriteEvent s.cfg off data))

/-- `RD` (R124): changes nothing, answered `OK` with `len` bytes under no law, in reset as out of it. -/
def execRd (addr : Word) (len : Nat) (s : State) : Host.Outcome State Fault Refusal :=
  .next { s with
    draws := s.draws + len
    history := .dnRead addr len .ok (freeBytes s.draws len) :: s.history }

end Sys2Proof.Machine
end

