-- ==== Sys2Proof/Machine/Reset.lean ====
section
/-! DEFINITION. The reset events (70_reset_and_hazards.md R240, R242). -/

namespace Sys2Proof.Machine

/-- `RESET.ASSERT` (R240), overriding everything (R243). -/
def execResetAssert (s : State) : Host.Outcome State Fault Refusal := .next s.assertReset

/-- `RESET.RELEASE` (R242). -/
def execResetRelease (s : State) : Host.Outcome State Fault Refusal := .next s.releaseReset

end Sys2Proof.Machine
end

