-- ==== Sys2Proof/Machine/TransferEngine.lean ====
section
/-! DEFINITION. TransferEngine: the tick and its six operations (41_transfer_engine.md). -/

namespace Sys2Proof.Machine

/-- `TICK` (R140): channel 1 completely, then channel 2 completely, as one transition; nothing while in reset (R157). -/
def execTick (s : State) : Host.Outcome State Fault Refusal :=
  if s.inReset then .next s else andThen (evalChannel .ch1 s) (evalChannel .ch2)

/-- `LATCH1` (R142). -/
def execLatch1 (s : State) : Host.Outcome State Fault Refusal := rowOp .ch1 .latch s

/-- `STEP1` (R144). -/
def execStep1 (s : State) : Host.Outcome State Fault Refusal := rowOp .ch1 .step s

/-- `SIGNAL1` (R146). -/
def execSignal1 (s : State) : Host.Outcome State Fault Refusal := rowOp .ch1 .signal s

/-- `LATCH2` (R143). -/
def execLatch2 (s : State) : Host.Outcome State Fault Refusal := rowOp .ch2 .latch s

/-- `STEP2` (R145). -/
def execStep2 (s : State) : Host.Outcome State Fault Refusal := rowOp .ch2 .step s

/-- `SIGNAL2` (R147). -/
def execSignal2 (s : State) : Host.Outcome State Fault Refusal := rowOp .ch2 .signal s

end Sys2Proof.Machine
end

