-- ==== Sys2Proof/Machine/Dispatch.lean ====
section
/-! DEFINITION. One arm per operation of the opcode table. -/

namespace Sys2Proof.Machine

def exec (i : Instr) (s : State) : Host.Outcome State Fault Refusal :=
  match i with
  | .wrSource1 v => Sys2Proof.Machine.execWrSource1 v s
  | .wrTarget1 v => Sys2Proof.Machine.execWrTarget1 v s
  | .wrSize1 v => Sys2Proof.Machine.execWrSize1 v s
  | .wrControl1 v => Sys2Proof.Machine.execWrControl1 v s
  | .wrSource2 v => Sys2Proof.Machine.execWrSource2 v s
  | .wrTarget2 v => Sys2Proof.Machine.execWrTarget2 v s
  | .wrSize2 v => Sys2Proof.Machine.execWrSize2 v s
  | .wrControl2 v => Sys2Proof.Machine.execWrControl2 v s
  | .wrNop off data => Sys2Proof.Machine.execWrNop off data s
  | .rd addr len => Sys2Proof.Machine.execRd addr len s
  | .tick => Sys2Proof.Machine.execTick s
  | .latch1 => Sys2Proof.Machine.execLatch1 s
  | .step1 => Sys2Proof.Machine.execStep1 s
  | .signal1 => Sys2Proof.Machine.execSignal1 s
  | .latch2 => Sys2Proof.Machine.execLatch2 s
  | .step2 => Sys2Proof.Machine.execStep2 s
  | .signal2 => Sys2Proof.Machine.execSignal2 s
  | .resetAssert => Sys2Proof.Machine.execResetAssert s
  | .resetRelease => Sys2Proof.Machine.execResetRelease s
  | .uprd c => Sys2Proof.Machine.execUprd c s
  | .upwr c d => Sys2Proof.Machine.execUpwr c d s

end Sys2Proof.Machine
end

