-- ==== Sys2Proof/Machine/Step.lean ====
section
/-! DEFINITION. One transition of the machine, and how a table word is placed for it. -/

namespace Sys2Proof.Machine

/-- One transition: the next stimulus, decoded, is performed as one atomic transition (00_scope.md R12); with none
pending the clock ticks, which it does for ever (70_reset_and_hazards.md R258, log 3). -/
def step (s : State) : Host.Outcome State Fault Refusal := exec s.nextInstr s.takeInput

/-- `s` with the operation of a numbered table word as the next one to be performed. A register row becomes a pending
downstream write. A selector row becomes a pending evaluation of channel 1 with the channel in a state of that selector.
A word that encodes nothing changes nothing (log 3, log 6). -/
def State.withFetchWord (s : State) (nbits w : Nat) : State :=
  match tableFrame s.cfg nbits w with
  | some f => s.placeFrame f
  | none => s

end Sys2Proof.Machine
end

