-- ==== Sys2Proof/Safety.lean ====
section
/-! DEFINITION. The terms that claims about runs use: the invariant, the paired history, runs of ticks, the effect of an
evaluation on a channel's registers as a table, a transfer that stays clear of the window, quiescence. -/

namespace Sys2Proof.Machine

/-- What holds of a channel at all times: the offset is a multiple of 4 (10_state.md R36); it does not exceed a SIZE that
is a multiple of 4 (R37); the line is true only when the offset has reached SIZE (R38). -/
abbrev Channel.Inv (ch : Channel) : Prop :=
  ch.offset.toNat % 4 = 0 ∧
  (ch.eng.size.toNat % 4 = 0 → ch.offset ≤ ch.eng.size) ∧
  (ch.irq = true → ch.eng.size ≤ ch.offset)

/-- The invariant of the machine: each channel's (10_state.md R36 to R38), the reset state while in reset
(70_reset_and_hazards.md R241), canonical memory, and a window that does not wrap (20_memory.md R60). -/
abbrev State.Inv (s : State) : Prop :=
  s.ch1.Inv ∧ s.ch2.Inv ∧
  (s.inReset = true → s.ch1 = Channel.reset ∧ s.ch2 = Channel.reset) ∧
  s.mem.wf = true ∧ s.cfg.wf

/-- The newest event is channel `c`'s upstream read that returned `d`. -/
def newestIsRead (c : Chan) (d : Quad) : List Event → Bool
  | .upRead c' _ d' :: _ => c' == c && d' == d
  | _ => false

/-- Every upstream write of the history stands right after an upstream read of the same channel with the same bytes
(43_bus_sequencer.md R196). The history is newest first. -/
def pairedHistory : List Event → Bool
  | [] => true
  | .upWrite c _ d :: rest => newestIsRead c d rest && pairedHistory rest
  | _ :: rest => pairedHistory rest

/-- The event is an upstream transaction of channel `c`. -/
def Event.isUpOf (c : Chan) : Event → Bool
  | .upRead c' _ _ => c' == c
  | .upWrite c' _ _ => c' == c
  | _ => false

/-- `k` clock ticks with nothing in between, stopping at a refusal. -/
def ticks : Nat → State → Host.Outcome State Fault Refusal
  | 0, s => .next s
  | k + 1, s => andThen (exec .tick s) (ticks k)

/-- The registers of a channel after one evaluation outside reset, by its logical state (41_transfer_engine.md R148). -/
def Channel.evaluated (ch : Channel) : Channel :=
  if ch.unconfigured then ch.latched else if ch.active then ch.advanced else ch.signalled

/-- Channel `c`'s next evaluation keeps off the block's own window (20_memory.md R68): an Active channel's configuration
and its next two accesses do, and so does the configuration that an Unconfigured channel's LATCH would arm. -/
def State.stepClear (s : State) (c : Chan) : Prop :=
  ((s.chan c).active = true →
    (s.chan c).eng.meetsWindow s.cfg = false ∧
    touchesWindow s.cfg (s.chan c).readAddr = false ∧ touchesWindow s.cfg (s.chan c).writeAddr = false) ∧
  ((s.chan c).unconfigured = true → (s.chan c).win.control ≠ 0 →
    (s.chan c).latched.eng.meetsWindow s.cfg = false)

/-- No armed channel's configuration includes the block's own window (20_memory.md R68). -/
def State.offWindow (s : State) : Prop :=
  ∀ c, (s.chan c).eng.ctrl = true → (s.chan c).eng.meetsWindow s.cfg = false

/-- The upstream platform is the reference environment of 20_memory.md R70: no other master, every address serviced. -/
def State.calm (s : State) : Prop := s.turns = [] ∧ s.cfg.unserved = []

/-- The four byte addresses of an upstream transaction at `a` (20_memory.md R51). -/
def inQuad (a x : Word) : Prop := x = a ∨ x = a + 1 ∨ x = a + 2 ∨ x = a + 3

/-- Armed in the window with a nonzero SIZE and waiting for its LATCH (70_reset_and_hazards.md R258). -/
def Channel.waiting (ch : Channel) : Prop :=
  ch.unconfigured = true ∧ ch.win.control ≠ 0 ∧ ch.win.size ≠ 0

/-- Quiescent (70_reset_and_hazards.md R258): no channel is Active or waiting for the LATCH that makes it Active. -/
def State.quiescent (s : State) : Prop := ∀ c, (s.chan c).active = false ∧ ¬ (s.chan c).waiting

/-- The addresses of channel `c`'s upstream transactions in a history, newest first, writes marked true. -/
def upAddrs (c : Chan) : List Event → List (Bool × Word)
  | [] => []
  | .upRead c' a _ :: rest => if c' = c then (false, a) :: upAddrs c rest else upAddrs c rest
  | .upWrite c' a _ :: rest => if c' = c then (true, a) :: upAddrs c rest else upAddrs c rest
  | _ :: rest => upAddrs c rest

/-- The addresses of the first `k` pairs of a transfer from `source` to `target`, newest first: pair `j` reads
`source +32 4j` and writes `target +32 4j` (41_transfer_engine.md R160). -/
def transferAddrs (source target : Word) : Nat → List (Bool × Word)
  | 0 => []
  | k + 1 =>
    (true, target + BitVec.ofNat 32 (4 * k)) :: (false, source + BitVec.ofNat 32 (4 * k)) ::
      transferAddrs source target k

/-- The rule of one register write row (40_register_window.md R112 to R119): the transaction at window offset `off` that
carries `v` is the operation `row v`; accepted, it replaces one window register as `put` says; dropped, in reset or while
the channel is Active, it replaces nothing; the answer `OK` is recorded either way, and nothing else changes. -/
def registerWriteRule (c : Chan) (off : Word) (row : Word → Instr) (put : Window → Word → Window) : Prop :=
  ∀ (s : State) (v : Word),
    decode s.cfg (.write (s.cfg.dmaBase + off) (regBytes s.cfg.byteOrder v).toList) = row v ∧
    (s.inReset = false → (s.chan c).active = false →
      exec (row v) s = .next { s.setChan c { s.chan c with win := put (s.chan c).win v } with
        history := .dnWrite (s.cfg.dmaBase + off) (regBytes s.cfg.byteOrder v).toList .ok :: s.history }) ∧
    (s.inReset = true ∨ (s.chan c).active = true →
      exec (row v) s = .next { s with
        history := .dnWrite (s.cfg.dmaBase + off) (regBytes s.cfg.byteOrder v).toList .ok :: s.history })

end Sys2Proof.Machine
end

