-- ==== Sys2Proof/Certificates/Slice0/Obligations.lean ====
section
/-! DEFINITION. The statements for the provers. The event history and its order are the model's own record (log 12); a
clause about a history says what the block did, not what it stores. -/

open Sys2Proof Sys2Proof.Machine

/-! ### Encoding and decoding -/

/-- Decoding the encoding of any well-formed operation gives it back, with every operand (30_encoding.md R80 to R93). -/
def Obligations.DecodeEncodeRoundTrip : Prop :=
  ∀ (cfg : Config) (i : Instr), i.wf = true → decode cfg (encode cfg i) = i

/-- The decoder answers only well-formed operations, whatever the frame (30_encoding.md R86, R93). -/
def Obligations.DecodedOperationsAreWellFormed : Prop :=
  ∀ (cfg : Config) (f : Frame), (decode cfg f).wf = true

/-- Each downstream write transaction has one meaning: encoding what it decodes to gives the same transaction, address and
bytes (30_encoding.md R81, R86, R93). -/
def Obligations.WriteTransactionsRoundTrip : Prop :=
  ∀ (cfg : Config) (addr : Word) (data : List Byte),
    encode cfg (decode cfg (.write addr data)) = .write addr data

/-- The register-select table at any window base, any byte order and any data (30_encoding.md R82, R83). -/
def Obligations.RegisterSelectTable : Prop :=
  ∀ (cfg : Config) (d : Quad),
    decode cfg (.write (cfg.dmaBase + 0x00) d.toList) = .wrSource1 (regValue cfg.byteOrder d) ∧
    decode cfg (.write (cfg.dmaBase + 0x04) d.toList) = .wrTarget1 (regValue cfg.byteOrder d) ∧
    decode cfg (.write (cfg.dmaBase + 0x08) d.toList) = .wrSize1 (regValue cfg.byteOrder d) ∧
    decode cfg (.write (cfg.dmaBase + 0x0C) d.toList) = .wrControl1 (regValue cfg.byteOrder d) ∧
    decode cfg (.write (cfg.dmaBase + 0x10) d.toList) = .wrSource2 (regValue cfg.byteOrder d) ∧
    decode cfg (.write (cfg.dmaBase + 0x14) d.toList) = .wrTarget2 (regValue cfg.byteOrder d) ∧
    decode cfg (.write (cfg.dmaBase + 0x18) d.toList) = .wrSize2 (regValue cfg.byteOrder d) ∧
    decode cfg (.write (cfg.dmaBase + 0x1C) d.toList) = .wrControl2 (regValue cfg.byteOrder d)

/-- The value of a register write's bytes in either byte order, and that bytes and value determine each other
(20_memory.md R53; which order an instance has is a parameter, log 2). -/
def Obligations.RegisterValueOfBytes : Prop :=
  (∀ d : Quad, (regValue .little d).toNat =
    d.b0.toNat + 2 ^ 8 * d.b1.toNat + 2 ^ 16 * d.b2.toNat + 2 ^ 24 * d.b3.toNat) ∧
  (∀ d : Quad, (regValue .big d).toNat =
    d.b3.toNat + 2 ^ 8 * d.b2.toNat + 2 ^ 16 * d.b1.toNat + 2 ^ 24 * d.b0.toNat) ∧
  (∀ (o : ByteOrder) (d : Quad), regBytes o (regValue o d) = d) ∧
  (∀ (o : ByteOrder) (v : Word), regValue o (regBytes o v) = v)

/-- The tick selector: each row is the one its channel's state calls for (30_encoding.md R87). -/
def Obligations.TickSelectorTable : Prop :=
  ∀ (cfg : Config) (ch : Channel),
    (ch.eng.ctrl = false →
      decode cfg (.select .ch1 ch.sel) = .latch1 ∧ decode cfg (.select .ch2 ch.sel) = .latch2) ∧
    (ch.eng.ctrl = true → ch.offset < ch.eng.size →
      decode cfg (.select .ch1 ch.sel) = .step1 ∧ decode cfg (.select .ch2 ch.sel) = .step2) ∧
    (ch.eng.ctrl = true → ch.eng.size ≤ ch.offset →
      decode cfg (.select .ch1 ch.sel) = .signal1 ∧ decode cfg (.select .ch2 ch.sel) = .signal2)

/-- Encodings written out from the spec, one of each format (95_test_vectors.md sections 2.1 and 2.5, 30_encoding.md R86
to R89), at the examples' base 0x40000000 and byte order (log 1, log 2). -/
def Obligations.EncodingsWrittenOut : Prop :=
  decode Config.reference (.write 0x40000000 [0x78, 0x56, 0x34, 0x12]) = .wrSource1 0x12345678 ∧
  decode Config.reference (.write 0x4000001C [0x00, 0x00, 0x00, 0x80]) = .wrControl2 0x80000000 ∧
  decode ⟨0x40000000, .big, []⟩ (.write 0x40000000 [0x78, 0x56, 0x34, 0x12]) = .wrSource1 0x78563412 ∧
  decode Config.reference (.write 0x3FFFFFFC [0x78, 0x56, 0x34, 0x12]) = .wrNop 0xFFFFFFFC [0x78, 0x56, 0x34, 0x12] ∧
  decode Config.reference (.write 0x4000000E [0x78, 0x56, 0x34, 0x12]) = .wrNop 0x0E [0x78, 0x56, 0x34, 0x12] ∧
  decode Config.reference (.write 0x40000000 [0x78]) = .wrNop 0x00 [0x78] ∧
  decode Config.reference (.read 0x4000000C 4) = .rd 0x4000000C 4 ∧
  decode Config.reference .tick = .tick ∧
  decode Config.reference (.select .ch2 0b01) = .latch2 ∧
  decode Config.reference (.select .ch2 0b11) = .step2 ∧
  decode Config.reference (.select .ch1 0b10) = .signal1 ∧
  decode Config.reference (.resetLine true) = .resetAssert ∧
  decode Config.reference (.resetLine false) = .resetRelease ∧
  decode Config.reference (.upRead .ch1) = .uprd .ch1 ∧
  decode Config.reference (.upWrite .ch2 ⟨1, 2, 3, 4⟩) = .upwr .ch2 ⟨1, 2, 3, 4⟩

/-! ### A transition -/

/-- A step takes the next pending stimulus away, decodes it (R93) and performs the operation; with none pending it
performs a clock tick. That the stimuli stand in a list, that the empty list means a tick and that one channel's
evaluation can be presented by itself are the model's choices (log 3, log 4). -/
def Obligations.StepRunsTheDecodedOperation : Prop :=
  ∀ (s : State) (rest : List Stimulus),
    (∀ addr data, s.inputs = .write addr data :: rest →
      step s = exec (decode s.cfg (.write addr data)) { s with inputs := rest }) ∧
    (∀ addr len, s.inputs = .read addr len :: rest →
      step s = exec (decode s.cfg (.read addr len)) { s with inputs := rest }) ∧
    (s.inputs = .tick :: rest → step s = exec (decode s.cfg .tick) { s with inputs := rest }) ∧
    (∀ level, s.inputs = .resetLine level :: rest →
      step s = exec (decode s.cfg (.resetLine level)) { s with inputs := rest }) ∧
    (∀ c, s.inputs = .eval c :: rest →
      step s = exec (decode s.cfg (.select c (s.chan c).sel)) { s with inputs := rest }) ∧
    (s.inputs = [] → step s = exec .tick s)

/-- A step never faults; it is refused only outside reset, when a channel's next evaluation does not keep off the block's
own window: an Active channel's configuration or next access includes a window address, or an Unconfigured channel's LATCH
would arm such a configuration (60_exceptions.md R210, 20_memory.md R68, log 11). In every other state it answers a next
state. -/
def Obligations.StepStopsOnlyAtTheOwnWindow : Prop :=
  ∀ s : State,
    (∃ t, step s = .next t) ∨
    (step s = .refused .ownWindow ∧ s.inReset = false ∧
      ∃ c, ((s.chan c).active = true ∧
          ((s.chan c).eng.meetsWindow s.cfg = true ∨
            touchesWindow s.cfg (s.chan c).readAddr = true ∨ touchesWindow s.cfg (s.chan c).writeAddr = true)) ∨
        ((s.chan c).unconfigured = true ∧ (s.chan c).win.control ≠ 0 ∧
          (⟨(s.chan c).win.source, (s.chan c).win.target, (s.chan c).win.size, true⟩ : Engine).meetsWindow s.cfg = true))

/-! ### The register window -/

/-- `WR.SOURCE1`, `WR.TARGET1`, `WR.SIZE1` (40_register_window.md R112, R113, R114): encoding, effect when accepted, no
effect when dropped, and that everything else stays. -/
def Obligations.RegisterWritesOfChannel1 : Prop :=
  registerWriteRule .ch1 0x00 .wrSource1 (fun w v => { w with source := v }) ∧
  registerWriteRule .ch1 0x04 .wrTarget1 (fun w v => { w with target := v }) ∧
  registerWriteRule .ch1 0x08 .wrSize1 (fun w v => { w with size := v })

/-- `WR.SOURCE2`, `WR.TARGET2`, `WR.SIZE2` (40_register_window.md R116, R117, R118). -/
def Obligations.RegisterWritesOfChannel2 : Prop :=
  registerWriteRule .ch2 0x10 .wrSource2 (fun w v => { w with source := v }) ∧
  registerWriteRule .ch2 0x14 .wrTarget2 (fun w v => { w with target := v }) ∧
  registerWriteRule .ch2 0x18 .wrSize2 (fun w v => { w with size := v })

/-- `WR.CONTROL1` and `WR.CONTROL2` (40_register_window.md R115, R119): the write stores the value and nothing else, so
neither starts a transfer nor clears a line; a channel that is Unconfigured arms at its next LATCH exactly if the value
is nonzero (the configuration it would arm keeping off the own window, 20_memory.md R68); writing 0 to a Complete channel makes its next SIGNAL leave it Unconfigured with the line still true, and the
LATCH after that clears the line. That LATCH loads the control flag is the spec's own decision D1 (log 13). -/
def Obligations.ControlWritesArmAndAcknowledge : Prop :=
  registerWriteRule .ch1 0x0C .wrControl1 (fun w v => { w with control := v }) ∧
  registerWriteRule .ch2 0x1C .wrControl2 (fun w v => { w with control := v }) ∧
  ∀ (s : State) (c : Chan), s.inReset = false →
    ((s.chan c).unconfigured = true → ∀ v : Word,
      (v ≠ 0 → (⟨(s.chan c).win.source, (s.chan c).win.target, (s.chan c).win.size, true⟩ : Engine).meetsWindow s.cfg =
        false) → ∃ t u,
      exec (wrInstr c .control v) s = .next t ∧ (t.chan c).eng.ctrl = false ∧ (t.chan c).irq = (s.chan c).irq ∧
      exec (tickInstr c .latch) t = .next u ∧ ((u.chan c).eng.ctrl = true ↔ v ≠ 0)) ∧
    ((s.chan c).complete = true → ∃ t u w,
      exec (wrInstr c .control 0) s = .next t ∧ (t.chan c).irq = (s.chan c).irq ∧
      exec (tickInstr c .signal) t = .next u ∧ (u.chan c).unconfigured = true ∧ (u.chan c).irq = true ∧
      exec (tickInstr c .latch) u = .next w ∧ (w.chan c).irq = false ∧ (w.chan c).unconfigured = true)

/-- A write whose window offset is not one of the eight recognised ones changes nothing and is answered `OK`
(40_register_window.md R120), whatever its length, in every state. -/
def Obligations.UnrecognisedOffsetWritesChangeNothing : Prop :=
  ∀ (s : State) (addr : Word) (data : List Byte),
    addr - s.cfg.dmaBase ∉ ([0x00, 0x04, 0x08, 0x0C, 0x10, 0x14, 0x18, 0x1C] : List Word) →
    exec (decode s.cfg (.write addr data)) s =
      .next { s with history := .dnWrite addr data .ok :: s.history }

/-- A write of a length other than 4 changes nothing at any address, and `WR.NOP` changes nothing with any operands
(40_register_window.md R121, the spec's own decision D9, log 17). -/
def Obligations.OtherLengthWritesChangeNothing : Prop :=
  ∀ (s : State),
    (∀ (addr : Word) (data : List Byte), data.length ≠ 4 →
      exec (decode s.cfg (.write addr data)) s =
        .next { s with history := .dnWrite addr data .ok :: s.history }) ∧
    (∀ (off : Word) (data : List Byte), exec (.wrNop off data) s =
        .next { s with history := .dnWrite (s.cfg.dmaBase + off) data .ok :: s.history })

/-- `RD` at any address and of any length, in every state, changes no register, line or byte of memory and is answered
`OK` with `len` bytes about which nothing is claimed (40_register_window.md R124, the spec's own decision D10; the counter
that supplies the free bytes is the model's, log 9). -/
def Obligations.ReadsChangeNothing : Prop :=
  ∀ (s : State) (addr : Word) (len : Nat), ∃ data : List Byte, data.length = len ∧
    exec (.rd addr len) s =
      .next { s with draws := s.draws + len, history := .dnRead addr len .ok data :: s.history }

/-- Writes to two different registers commute, and two equal writes leave what one leaves, in the registers of both
channels (40_register_window.md R125). -/
def Obligations.RegisterWritesCommute : Prop :=
  (∀ (s t u t' u' : State) (c c' : Chan) (r r' : Reg) (v v' : Word), (c, r) ≠ (c', r') →
    exec (wrInstr c r v) s = .next t → exec (wrInstr c' r' v') t = .next u →
    exec (wrInstr c' r' v') s = .next t' → exec (wrInstr c r v) t' = .next u' →
    u.ch1 = u'.ch1 ∧ u.ch2 = u'.ch2) ∧
  (∀ (s t u : State) (c : Chan) (r : Reg) (v : Word),
    exec (wrInstr c r v) s = .next t → exec (wrInstr c r v) t = .next u → u.ch1 = t.ch1 ∧ u.ch2 = t.ch2)

/-! ### The transfer engine, one operation -/

/-- `LATCH1` and `LATCH2` where selected (41_transfer_engine.md R142, R143): the working copies, the offset and the line;
nothing else. An armed configuration keeps off the own window (20_memory.md R68; where it does not,
OwnWindowAccessIsRefused). That LATCH loads the control flag is the spec's own decision D1 (log 13). -/
def Obligations.LatchLoadsTheWorkingCopies : Prop :=
  ∀ s : State, s.inReset = false →
    (s.ch1.eng.ctrl = false → (s.ch1.win.control ≠ 0 →
        (⟨s.ch1.win.source, s.ch1.win.target, s.ch1.win.size, true⟩ : Engine).meetsWindow s.cfg = false) →
      exec .latch1 s = .next { s with
      ch1 := ⟨s.ch1.win, ⟨s.ch1.win.source, s.ch1.win.target, s.ch1.win.size, s.ch1.win.control != 0⟩, 0, false⟩
      history := if s.ch1.irq then .irq .ch1 false :: s.history else s.history }) ∧
    (s.ch2.eng.ctrl = false → (s.ch2.win.control ≠ 0 →
        (⟨s.ch2.win.source, s.ch2.win.target, s.ch2.win.size, true⟩ : Engine).meetsWindow s.cfg = false) →
      exec .latch2 s = .next { s with
      ch2 := ⟨s.ch2.win, ⟨s.ch2.win.source, s.ch2.win.target, s.ch2.win.size, s.ch2.win.control != 0⟩, 0, false⟩
      history := if s.ch2.irq then .irq .ch2 false :: s.history else s.history })

/-- `STEP1` and `STEP2` where selected (41_transfer_engine.md R144, R145), off the block's own window: one read at
`E.SOURCE +32 OFFSET`, then one write at `E.TARGET +32 OFFSET` of the same four bytes, then the offset 4 higher; no
window register, working copy or line and nothing of the other channel changes, whatever the platform answers. -/
def Obligations.StepRelaysOneWord : Prop :=
  ∀ s : State, s.inReset = false →
    (s.ch1.eng.ctrl = true → s.ch1.offset < s.ch1.eng.size → s.ch1.eng.meetsWindow s.cfg = false →
      touchesWindow s.cfg (s.ch1.eng.source + s.ch1.offset) = false →
      touchesWindow s.cfg (s.ch1.eng.target + s.ch1.offset) = false →
      ∃ t d, exec .step1 s = .next t ∧
        t.ch1 = { s.ch1 with offset := s.ch1.offset + 4 } ∧ t.ch2 = s.ch2 ∧
        t.inReset = s.inReset ∧ t.cfg = s.cfg ∧ t.inputs = s.inputs ∧
        t.history = .upWrite .ch1 (s.ch1.eng.target + s.ch1.offset) d ::
          .upRead .ch1 (s.ch1.eng.source + s.ch1.offset) d :: s.history) ∧
    (s.ch2.eng.ctrl = true → s.ch2.offset < s.ch2.eng.size → s.ch2.eng.meetsWindow s.cfg = false →
      touchesWindow s.cfg (s.ch2.eng.source + s.ch2.offset) = false →
      touchesWindow s.cfg (s.ch2.eng.target + s.ch2.offset) = false →
      ∃ t d, exec .step2 s = .next t ∧
        t.ch2 = { s.ch2 with offset := s.ch2.offset + 4 } ∧ t.ch1 = s.ch1 ∧
        t.inReset = s.inReset ∧ t.cfg = s.cfg ∧ t.inputs = s.inputs ∧
        t.history = .upWrite .ch2 (s.ch2.eng.target + s.ch2.offset) d ::
          .upRead .ch2 (s.ch2.eng.source + s.ch2.offset) d :: s.history)

/-- The memory after `STEP1` or `STEP2` (20_memory.md R52, R66, R69): the bytes relayed are the memory's as it stands when
the read is serviced; the four target bytes take them when the write is serviced; every other byte is what other masters
left there. `m1` and `m2` are the memory after the other masters' writes before the read and before the write (log 8). -/
def Obligations.StepMemoryFrame : Prop :=
  ∀ (s t : State) (c : Chan), s.mem.wf = true → s.inReset = false → (s.chan c).active = true →
    exec (tickInstr c .step) s = .next t →
    let m1 := s.mem.applyOthers s.nextTurn.others
    let m2 := m1.applyOthers s.openTurn.nextTurn.others
    let a := (s.chan c).eng.source + (s.chan c).offset
    let b := (s.chan c).eng.target + (s.chan c).offset
    ∃ d, t.history = .upWrite c b d :: .upRead c a d :: s.history ∧
      (s.services a = true → d = ⟨m1.byte a, m1.byte (a + 1), m1.byte (a + 2), m1.byte (a + 3)⟩) ∧
      (s.openTurn.services b = true →
        t.mem.byte b = d.b0 ∧ t.mem.byte (b + 1) = d.b1 ∧ t.mem.byte (b + 2) = d.b2 ∧ t.mem.byte (b + 3) = d.b3) ∧
      (s.openTurn.services b = false → t.mem = m2) ∧
      (∀ x, ¬ inQuad b x → t.mem.byte x = m2.byte x) ∧
      (s.turns = [] → m2 = s.mem)

/-- `SIGNAL1` and `SIGNAL2` where selected (41_transfer_engine.md R146, R147): the line is true, the control flag is read
again from the window; nothing else changes. -/
def Obligations.SignalAssertsTheLine : Prop :=
  ∀ s : State, s.inReset = false →
    (s.ch1.eng.ctrl = true → s.ch1.eng.size ≤ s.ch1.offset → exec .signal1 s = .next { s with
      ch1 := { s.ch1 with irq := true, eng := { s.ch1.eng with ctrl := s.ch1.win.control != 0 } }
      history := if s.ch1.irq then s.history else .irq .ch1 true :: s.history }) ∧
    (s.ch2.eng.ctrl = true → s.ch2.eng.size ≤ s.ch2.offset → exec .signal2 s = .next { s with
      ch2 := { s.ch2 with irq := true, eng := { s.ch2.eng with ctrl := s.ch2.win.control != 0 } }
      history := if s.ch2.irq then s.history else .irq .ch2 true :: s.history })

/-- A row of the tick class that the channel's state does not select, or that is given in reset, is not performed, and
neither is an upstream row outside a STEP's conditions: the state stays. This is the model's choice (log 5); the block
never performs such a row. -/
def Obligations.UnselectedRowsAreNotPerformed : Prop :=
  ∀ (s : State) (c : Chan),
    (s.inReset = true ∨ (s.chan c).unconfigured = false → exec (tickInstr c .latch) s = .next s) ∧
    (s.inReset = true ∨ (s.chan c).active = false → exec (tickInstr c .step) s = .next s) ∧
    (s.inReset = true ∨ (s.chan c).complete = false → exec (tickInstr c .signal) s = .next s) ∧
    (s.inReset = true ∨ (s.chan c).active = false → exec (.uprd c) s = .next s) ∧
    (s.inReset = true ∨ (s.chan c).active = false → ∀ d, exec (.upwr c d) s = .next s)

/-- The configurations refused (20_memory.md R68): some address `SOURCE +32 k` or `TARGET +32 k`, `k` below the transfer
length rounded up to a multiple of 4, lies in `DMA_BASE .. DMA_BASE + 0x1F`. The sizes above 0xFFFFFFFC are excepted,
the transfers that never end (93_implementation_defined.md U4; log 11). -/
def Obligations.RefusedConfigurations : Prop :=
  ∀ (cfg : Config) (e : Engine),
    e.meetsWindow cfg = true ↔
      e.size ≤ 0xFFFFFFFC ∧
      ∃ k, k < 4 * ((e.size.toNat + 3) / 4) ∧
        ((e.source + BitVec.ofNat 32 k - cfg.dmaBase).toNat < 32 ∨
          (e.target + BitVec.ofNat 32 k - cfg.dmaBase).toNat < 32)

/-- Where an operation is refused, outside reset: at an Active channel whose configuration includes the own window or whose
next access touches it, and at the LATCH that would arm such a configuration (20_memory.md R68; that the LATCH is where a
configuration is refused, and the excepted sizes, are read from the spec, log 11). -/
def Obligations.OwnWindowAccessIsRefused : Prop :=
  ∀ (s : State) (c : Chan), s.inReset = false →
    ((s.chan c).active = true →
      ((s.chan c).eng.meetsWindow s.cfg = true ∨
          touchesWindow s.cfg (s.chan c).readAddr = true ∨ touchesWindow s.cfg (s.chan c).writeAddr = true →
        exec (tickInstr c .step) s = .refused .ownWindow ∧ exec .tick s = .refused .ownWindow) ∧
      ((s.chan c).eng.meetsWindow s.cfg = true ∨ touchesWindow s.cfg (s.chan c).readAddr = true →
        exec (.uprd c) s = .refused .ownWindow) ∧
      ((s.chan c).eng.meetsWindow s.cfg = true ∨ touchesWindow s.cfg (s.chan c).writeAddr = true →
        ∀ d, exec (.upwr c d) s = .refused .ownWindow)) ∧
    ((s.chan c).unconfigured = true → (s.chan c).win.control ≠ 0 →
      (⟨(s.chan c).win.source, (s.chan c).win.target, (s.chan c).win.size, true⟩ : Engine).meetsWindow s.cfg = true →
      exec (tickInstr c .latch) s = .refused .ownWindow ∧ exec .tick s = .refused .ownWindow)

/-- Every step keeps each armed channel's configuration off the block's own window (20_memory.md R68, log 11). -/
def Obligations.EveryStepKeepsConfigurationsOffTheWindow : Prop :=
  ∀ s t : State, s.offWindow → step s = .next t → t.offWindow

/-- The state after reset arms no channel, so its configurations keep off the window, in every instance. -/
def Obligations.ResetConfigurationsAreOffTheWindow : Prop :=
  ∀ cfg : Config, ({ State.reset with cfg := cfg } : State).offWindow

/-! ### The upstream port -/

/-- `UPRD` (43_bus_sequencer.md R189, 20_memory.md R69): one read at `E[c].SOURCE +32 OFFSET[c]`; it changes no register and
no byte of memory of its own, and returns the memory's bytes when the platform services it. The byte counter and the
platform's turns are the model's (log 8, log 9). -/
def Obligations.UpstreamReadReturnsTheMemorysBytes : Prop :=
  ∀ (s : State) (c : Chan), s.inReset = false → (s.chan c).active = true → (s.chan c).eng.meetsWindow s.cfg = false →
    touchesWindow s.cfg ((s.chan c).eng.source + (s.chan c).offset) = false →
    ∃ t d, exec (.uprd c) s = .next t ∧
      t.ch1 = s.ch1 ∧ t.ch2 = s.ch2 ∧ t.inReset = s.inReset ∧ t.cfg = s.cfg ∧ t.inputs = s.inputs ∧
      t.history = .upRead c ((s.chan c).eng.source + (s.chan c).offset) d :: s.history ∧
      t.mem = s.mem.applyOthers s.nextTurn.others ∧ (s.turns = [] → t.mem = s.mem) ∧
      (s.services ((s.chan c).eng.source + (s.chan c).offset) = true →
        d = t.mem.readQuad ((s.chan c).eng.source + (s.chan c).offset))

/-- `UPWR` (43_bus_sequencer.md R190, 20_memory.md R69): one write at `E[c].TARGET +32 OFFSET[c]` of its four bytes; it
changes no register; a write the platform does not service changes no byte. -/
def Obligations.UpstreamWriteStoresItsBytes : Prop :=
  ∀ (s : State) (c : Chan) (d : Quad), s.mem.wf = true → s.inReset = false → (s.chan c).active = true →
    (s.chan c).eng.meetsWindow s.cfg = false →
    touchesWindow s.cfg ((s.chan c).eng.target + (s.chan c).offset) = false →
    let b := (s.chan c).eng.target + (s.chan c).offset
    let m := s.mem.applyOthers s.nextTurn.others
    ∃ t, exec (.upwr c d) s = .next t ∧
      t.ch1 = s.ch1 ∧ t.ch2 = s.ch2 ∧ t.inReset = s.inReset ∧ t.cfg = s.cfg ∧ t.inputs = s.inputs ∧
      t.draws = s.draws ∧ t.history = .upWrite c b d :: s.history ∧
      (s.services b = true →
        t.mem.byte b = d.b0 ∧ t.mem.byte (b + 1) = d.b1 ∧ t.mem.byte (b + 2) = d.b2 ∧ t.mem.byte (b + 3) = d.b3) ∧
      (s.services b = false → t.mem = m) ∧
      (∀ x, ¬ inQuad b x → t.mem.byte x = m.byte x) ∧
      (s.turns = [] → m = s.mem)

/-- The block issues an upstream transaction only for an Active channel outside reset, at that channel's two addresses
(43_bus_sequencer.md R197, R189, R190). -/
def Obligations.UpstreamTrafficOnlyFromActiveChannels : Prop :=
  ∀ (s t : State), step s = .next t → ∃ new : List Event, t.history = new ++ s.history ∧
    (∀ c a d, .upRead c a d ∈ new →
      s.inReset = false ∧ (s.chan c).active = true ∧ a = (s.chan c).eng.source + (s.chan c).offset) ∧
    (∀ c a d, .upWrite c a d ∈ new →
      s.inReset = false ∧ (s.chan c).active = true ∧ a = (s.chan c).eng.target + (s.chan c).offset)

/-! ### The tick -/

/-- A tick while `IN_RESET` is true changes nothing (41_transfer_engine.md R157). -/
def Obligations.TickInResetChangesNothing : Prop :=
  ∀ s : State, s.inReset = true → exec .tick s = .next s

/-- Outside reset a tick is the row channel 1's selector decodes to, then the row channel 2's selector decodes to
(30_encoding.md R93, 41_transfer_engine.md R140, R141). -/
def Obligations.TickIsTheTwoSelectedRows : Prop :=
  ∀ s : State, s.inReset = false →
    exec .tick s =
      andThen (exec (decode s.cfg (.select .ch1 s.ch1.sel)) s)
        (fun s1 => exec (decode s1.cfg (.select .ch2 s1.ch2.sel)) s1)

/-- A tick outside reset answers a next state whenever both channels' evaluations keep off the block's own window, with each channel's registers as that channel's own state alone determines (41_transfer_engine.md R140, R148,
R154). -/
def Obligations.TickCompletes : Prop :=
  ∀ s : State, s.inReset = false → s.stepClear .ch1 → s.stepClear .ch2 →
    ∃ t, exec .tick s = .next t ∧ t.ch1 = s.ch1.evaluated ∧ t.ch2 = s.ch2.evaluated ∧
      t.inReset = false ∧ t.cfg = s.cfg ∧ t.inputs = s.inputs

/-- With both channels Active a tick issues channel 1's read, channel 1's write, channel 2's read, channel 2's write, in
that order (20_memory.md R62, 43_bus_sequencer.md R193). -/
def Obligations.TickTransactionOrder : Prop :=
  ∀ s : State, s.inReset = false → s.ch1.active = true → s.ch2.active = true →
    s.stepClear .ch1 → s.stepClear .ch2 →
    ∃ t d1 d2, exec .tick s = .next t ∧
      t.history =
        .upWrite .ch2 (s.ch2.eng.target + s.ch2.offset) d2 :: .upRead .ch2 (s.ch2.eng.source + s.ch2.offset) d2 ::
        .upWrite .ch1 (s.ch1.eng.target + s.ch1.offset) d1 :: .upRead .ch1 (s.ch1.eng.source + s.ch1.offset) d1 ::
        s.history

/-- When channel 2 reads the word channel 1 writes in the same tick it gets the new bytes, in the reference environment
(20_memory.md R67, 41_transfer_engine.md R145; the environment is R70's). -/
def Obligations.ChannelTwoReadsWhatChannelOneWrote : Prop :=
  ∀ s : State, s.mem.wf = true → s.calm → s.inReset = false → s.ch1.active = true → s.ch2.active = true →
    s.stepClear .ch1 → s.stepClear .ch2 → s.ch2.readAddr = s.ch1.writeAddr →
    ∃ t, exec .tick s = .next t ∧
      t.history =
        .upWrite .ch2 s.ch2.writeAddr (s.mem.readQuad s.ch1.readAddr) ::
        .upRead .ch2 s.ch2.readAddr (s.mem.readQuad s.ch1.readAddr) ::
        .upWrite .ch1 s.ch1.writeAddr (s.mem.readQuad s.ch1.readAddr) ::
        .upRead .ch1 s.ch1.readAddr (s.mem.readQuad s.ch1.readAddr) :: s.history

/-- The state-transition table of one channel at a tick (41_transfer_engine.md R148), for a channel that meets the
invariant, whatever the other channel does. -/
def Obligations.ChannelTransitionTable : Prop :=
  ∀ (s t : State) (c : Chan), s.inReset = false → (s.chan c).Inv → exec .tick s = .next t →
    let ch := s.chan c
    let ch' := t.chan c
    (ch.unconfigured = true → ch.win.control = 0 → ch'.unconfigured = true ∧ ch'.irq = false ∧ ch'.offset = 0) ∧
    (ch.unconfigured = true → ch.win.control ≠ 0 → ch.win.size ≠ 0 →
      ch'.active = true ∧ ch'.irq = false ∧ ch'.offset = 0) ∧
    (ch.unconfigured = true → ch.win.control ≠ 0 → ch.win.size = 0 →
      ch'.complete = true ∧ ch'.irq = false ∧ ch'.offset = 0) ∧
    (ch.active = true → ch.offset + 4 < ch.eng.size →
      ch'.active = true ∧ ch'.irq = false ∧ ch'.offset = ch.offset + 4) ∧
    (ch.active = true → ¬ ch.offset + 4 < ch.eng.size →
      ch'.complete = true ∧ ch'.irq = false ∧ ch'.offset = ch.offset + 4) ∧
    (ch.complete = true → ch.win.control ≠ 0 → ch'.complete = true ∧ ch'.irq = true ∧ ch'.offset = ch.offset) ∧
    (ch.complete = true → ch.win.control = 0 → ch'.unconfigured = true ∧ ch'.irq = true ∧ ch'.offset = ch.offset)

/-! ### Reset -/

/-- `RESET.ASSERT` in any state (70_reset_and_hazards.md R240, R243): every element of both channels zero and false,
`IN_RESET` true; memory stays; no upstream transaction is issued and no interrupt is raised. -/
def Obligations.ResetAssertZeroesBothChannels : Prop :=
  ∀ s : State, ∃ new : List Event,
    exec .resetAssert s = .next { s with
      ch1 := ⟨⟨0, 0, 0, 0⟩, ⟨0, 0, 0, false⟩, 0, false⟩
      ch2 := ⟨⟨0, 0, 0, 0⟩, ⟨0, 0, 0, false⟩, 0, false⟩
      inReset := true
      history := new ++ s.history } ∧
    ∀ e ∈ new, ∀ c, e.isUpOf c = false ∧ e ≠ .irq c true

/-- `RESET.RELEASE` (70_reset_and_hazards.md R242): `IN_RESET` false and nothing else changed, in any state; released from
reset the block stands in the reset state, and the tick that follows leaves everything as it was. -/
def Obligations.ResetReleaseOnlyClearsInReset : Prop :=
  (∀ s : State, exec .resetRelease s = .next { s with
    inReset := false
    history := if s.inReset then .resetRelease :: s.history else s.history }) ∧
  (∀ s : State, s.Inv → s.inReset = true → ∃ t, exec .resetRelease s = .next t ∧
    t.ch1 = ⟨⟨0, 0, 0, 0⟩, ⟨0, 0, 0, false⟩, 0, false⟩ ∧
    t.ch2 = ⟨⟨0, 0, 0, 0⟩, ⟨0, 0, 0, false⟩, 0, false⟩ ∧
    t.inReset = false ∧ exec .tick t = .next t)

/-- The state after reset (10_state.md R33): every element of both channels zero and false, `IN_RESET` false; the first
tick then changes nothing (70_reset_and_hazards.md R242). That the first state has the reset input released is the spec's
own decision D14 (log 18); its parameters and memory are the model's (log 1, 2, 7). -/
def Obligations.ResetStateIsZeroAndIdle : Prop :=
  State.reset.ch1 = ⟨⟨0, 0, 0, 0⟩, ⟨0, 0, 0, false⟩, 0, false⟩ ∧
  State.reset.ch2 = ⟨⟨0, 0, 0, 0⟩, ⟨0, 0, 0, false⟩, 0, false⟩ ∧
  State.reset.inReset = false ∧
  exec .tick State.reset = .next State.reset

/-! ### Whole-machine properties -/

/-- Every step keeps the invariant: offsets multiples of 4 (10_state.md R36), not above a SIZE that is a multiple of 4
(R37), a true line only at the end of a transfer (R38), the reset state while in reset (R241), canonical memory. -/
def Obligations.EveryStepKeepsTheInvariant : Prop :=
  ∀ s t : State, s.Inv → step s = .next t → t.Inv

/-- The state after reset meets the invariant, and its history is paired. The clauses on the window's base and on memory's
form rest on the model's choices for the reset state, its base 0x40000000 and its empty memory (log 1, log 7), and the
empty history is the model's record (log 12); the channels' clauses are 10_state.md R33, R36 to R38. -/
def Obligations.ResetMeetsTheInvariant : Prop :=
  State.reset.Inv ∧ pairedHistory State.reset.history = true

/-- Every step keeps the trace law: each upstream write stands right after an upstream read of the same channel that
returned the same bytes (43_bus_sequencer.md R196). -/
def Obligations.EveryStepKeepsTheTraceLaw : Prop :=
  ∀ s t : State, pairedHistory s.history = true → step s = .next t → pairedHistory t.history = true

/-- Nothing of the rest of the state can influence a channel: whatever operation runs, in two states that agree on channel
`c` and on `IN_RESET`, channel `c` ends equal (10_state.md R35, 41_transfer_engine.md R154). -/
def Obligations.ChannelsAreIndependent : Prop :=
  ∀ (i : Instr) (c : Chan) (s s' t t' : State),
    s.chan c = s'.chan c → s.inReset = s'.inReset →
    exec i s = .next t → exec i s' = .next t' → t.chan c = t'.chan c

/-- Writers are exclusive (10_state.md R34): a downstream transaction leaves every working copy, offset and line alone and
changes at most one window register, a read none; a tick or upstream operation changes no window register. -/
def Obligations.WritersAreExclusive : Prop :=
  ∀ (i : Instr) (s t : State), exec i s = .next t →
    (i.format = .regwr →
      (t.ch1 = s.ch1 ∧ t.ch2 = s.ch2) ∨
      ∃ c r v, t.chan c = (s.chan c).setReg r v ∧ ∀ c', c' ≠ c → t.chan c' = s.chan c') ∧
    (i.format = .regrd → t.ch1 = s.ch1 ∧ t.ch2 = s.ch2) ∧
    (i.format = .tick ∨ i.format = .up → t.ch1.win = s.ch1.win ∧ t.ch2.win = s.ch2.win) ∧
    (i.format = .regwr → ∀ c, (t.chan c).eng = (s.chan c).eng ∧ (t.chan c).offset = (s.chan c).offset ∧
      (t.chan c).irq = (s.chan c).irq)

/-- A line becomes false in exactly two ways, its channel's LATCH and reset (42_interrupt_latch.md R172), and true in one,
its channel's SIGNAL (R171): no register write, read, step or upstream transaction changes it. -/
def Obligations.LinesRiseBySignalAndFallByLatchOrReset : Prop :=
  ∀ (i : Instr) (s t : State) (c : Chan), exec i s = .next t →
    let latched := s.inReset = false ∧ (s.chan c).unconfigured = true ∧ (i = .tick ∨ i = tickInstr c .latch)
    let signalled := s.inReset = false ∧ (s.chan c).complete = true ∧ (i = .tick ∨ i = tickInstr c .signal)
    (latched ∨ i = .resetAssert → (t.chan c).irq = false) ∧
    (signalled → (t.chan c).irq = true) ∧
    ((s.chan c).irq = true → (t.chan c).irq = false → latched ∨ i = .resetAssert) ∧
    ((s.chan c).irq = false → (t.chan c).irq = true → signalled)

/-- An Active channel cannot be stopped, redirected or shortened except by reset (41_transfer_engine.md R155): whatever
other operation runs, its registers stay; at a tick or its own STEP it issues its pair and its offset advances by 4, at
anything else the offset stays. Reset returns it to the reset state. -/
def Obligations.OnlyResetStopsAnActiveChannel : Prop :=
  ∀ (i : Instr) (s t : State) (c : Chan), s.inReset = false → (s.chan c).active = true → exec i s = .next t →
    let runs := i = .tick ∨ i = tickInstr c .step
    (i = .resetAssert → t.chan c = ⟨⟨0, 0, 0, 0⟩, ⟨0, 0, 0, false⟩, 0, false⟩) ∧
    (i ≠ .resetAssert →
      (t.chan c).win = (s.chan c).win ∧ (t.chan c).eng = (s.chan c).eng ∧ (t.chan c).irq = (s.chan c).irq) ∧
    (runs → (t.chan c).offset = (s.chan c).offset + 4 ∧
      upAddrs c t.history =
        (true, (s.chan c).eng.target + (s.chan c).offset) :: (false, (s.chan c).eng.source + (s.chan c).offset) ::
          upAddrs c s.history) ∧
    (¬ runs → i ≠ .resetAssert → (t.chan c).offset = (s.chan c).offset)

/-- Canonical memories that read alike at every bus address are equal (the form is the model's, log 7). -/
def Obligations.CanonicalMemoriesAreDeterminedByTheirBytes : Prop :=
  ∀ m m' : Memory, m.wf = true → m'.wf = true → (∀ a : Word, m.byte a = m'.byte a) → m = m'

/-! ### Whole transfers -/

/-- A zero-size transfer (41_transfer_engine.md R149): Complete after the LATCH with the line still false, the line true one
tick later, and no upstream transaction of the channel. -/
def Obligations.ZeroSizeTransferIssuesNothing : Prop :=
  ∀ (s t u : State) (c : Chan), s.inReset = false → (s.chan c).unconfigured = true →
    (s.chan c).win.control ≠ 0 → (s.chan c).win.size = 0 →
    exec .tick s = .next t → exec .tick t = .next u →
    (t.chan c).complete = true ∧ (t.chan c).irq = false ∧ (u.chan c).irq = true ∧
    upAddrs c u.history = upAddrs c s.history

/-- The tick counts of one transfer (41_transfer_engine.md R153): armed and Unconfigured, with SIZE a multiple of 4, the
offset after tick `k` is `4 (k - 1)` up to SIZE, and the line is true from tick `SIZE / 4 + 2` on, whatever the other
channel and the platform do. That the first tick is a LATCH that arms and copies nothing is the spec's own decisions D1 and
D2 (log 13, log 14). Other sizes: TransferOfAnySizeRoundsUp. -/
def Obligations.TickCountsOfOneTransfer : Prop :=
  ∀ (s t : State) (c : Chan) (k : Nat), s.inReset = false → (s.chan c).unconfigured = true →
    (s.chan c).win.control ≠ 0 → (s.chan c).win.size.toNat % 4 = 0 → 1 ≤ k → ticks k s = .next t →
    (t.chan c).offset.toNat = min (4 * (k - 1)) (s.chan c).win.size.toNat ∧
    ((t.chan c).irq = true ↔ (s.chan c).win.size.toNat / 4 + 2 ≤ k) ∧
    (t.chan c).eng.ctrl = true

/-- The traffic of one transfer (41_transfer_engine.md R160): from offset 0, ticks issue exactly the pairs of a transfer of
SIZE / 4 words, read and write addresses ascending, one pair a tick (the spec's own decision D2, log 14), and nothing after
the last. Other sizes: TransferOfAnySizeRoundsUp. -/
def Obligations.TransferIssuesItsPairsInOrder : Prop :=
  ∀ (s t : State) (c : Chan) (k : Nat), s.inReset = false → (s.chan c).active = true → (s.chan c).offset = 0 →
    (s.chan c).eng.size.toNat % 4 = 0 → (s.chan c).win.control ≠ 0 → ticks k s = .next t →
    upAddrs c t.history =
      transferAddrs (s.chan c).eng.source (s.chan c).eng.target (min k ((s.chan c).eng.size.toNat / 4)) ++
        upAddrs c s.history

/-- A whole transfer copies (41_transfer_engine.md R160): in the reference environment, with the other channel idle, ranges
that do not overlap and stay clear of the block's own window, SIZE / 4 ticks end Complete with every target byte equal to
its source byte and every other byte as before. That the ticks complete rests on upstream calls that return (log 21).
Transfers with the other channel running are not covered. -/
def Obligations.TransferCopiesTheSourceRange : Prop :=
  ∀ (s : State) (c c' : Chan), c' ≠ c → s.mem.wf = true → s.calm → s.inReset = false →
    (s.chan c).active = true → (s.chan c).offset = 0 → (s.chan c).eng.size.toNat % 4 = 0 →
    (s.chan c').unconfigured = true → (s.chan c').win.control = 0 →
    let n := (s.chan c).eng.size.toNat
    let src := fun i : Nat => (s.chan c).eng.source + BitVec.ofNat 32 i
    let tgt := fun i : Nat => (s.chan c).eng.target + BitVec.ofNat 32 i
    (∀ i, i < n → inWindow s.cfg (src i) = false ∧ inWindow s.cfg (tgt i) = false) →
    (∀ i j, i < n → j < n → src i ≠ tgt j) →
    ∃ t, ticks (n / 4) s = .next t ∧ (t.chan c).complete = true ∧
      (∀ i, i < n → t.mem.byte (tgt i) = s.mem.byte (src i)) ∧
      (∀ x, (∀ i, i < n → x ≠ tgt i) → t.mem.byte x = s.mem.byte x)

/-- A transfer whose SIZE need not be a multiple of 4, at most 0xFFFFFFFC (41_transfer_engine.md R150, the spec's own decision
D17, log 20): armed and Unconfigured, after tick `k` the offset is `4 (k - 1)` up to SIZE rounded up to a multiple of 4, the
line is true from two ticks after that many words on, and the channel has issued exactly the pairs of those words in
order. The tick counts rest on D1 and D2 (log 13, log 14). A size above 0xFFFFFFE0 has no placement off the own window, so
its LATCH is refused and the ticks answer no state (20_memory.md R68). -/
def Obligations.TransferOfAnySizeRoundsUp : Prop :=
  ∀ (s t : State) (c : Chan) (k : Nat), s.inReset = false → (s.chan c).unconfigured = true →
    (s.chan c).win.control ≠ 0 → (s.chan c).win.size ≤ 0xFFFFFFFC → 1 ≤ k → ticks k s = .next t →
    let words := ((s.chan c).win.size.toNat + 3) / 4
    (t.chan c).offset.toNat = 4 * min (k - 1) words ∧
    ((t.chan c).irq = true ↔ words + 2 ≤ k) ∧
    upAddrs c t.history =
      transferAddrs (s.chan c).win.source (s.chan c).win.target (min (k - 1) words) ++ upAddrs c s.history

/-- The acknowledge (42_interrupt_latch.md R174): CONTROL written 0 on a Complete channel with its line true leaves the line
true; after the next tick the channel is Unconfigured with the line still true; after the second the line is false and the
offset 0. -/
def Obligations.AcknowledgeTakesTwoTicks : Prop :=
  ∀ (s : State) (c : Chan), s.inReset = false → (s.chan c).complete = true → (s.chan c).irq = true →
    ∃ t, exec (wrInstr c .control 0) s = .next t ∧
      t.chan c = { s.chan c with win := { (s.chan c).win with control := 0 } } ∧
      ∀ u, exec .tick t = .next u →
        (u.chan c).unconfigured = true ∧ (u.chan c).irq = true ∧ (u.chan c).offset = (s.chan c).offset ∧
        ∀ v, exec .tick u = .next v →
          (v.chan c).unconfigured = true ∧ (v.chan c).irq = false ∧ (v.chan c).offset = 0

/-- The lost acknowledge (70_reset_and_hazards.md R248, 41_transfer_engine.md R159): CONTROL written 0 and then nonzero with
no tick between leaves the channel Complete on the old transfer with its line true, through any number of ticks. -/
def Obligations.RearmingWithoutATickLosesTheAcknowledge : Prop :=
  ∀ (s t u w : State) (c : Chan) (v : Word) (k : Nat), s.inReset = false → (s.chan c).complete = true →
    (s.chan c).irq = true → v ≠ 0 →
    exec (wrInstr c .control 0) s = .next t → exec (wrInstr c .control v) t = .next u → ticks k u = .next w →
    (w.chan c).complete = true ∧ (w.chan c).irq = true ∧ (w.chan c).eng = (s.chan c).eng ∧
    (w.chan c).offset = (s.chan c).offset ∧ (w.chan c).win.control = v

/-- Quiescence (70_reset_and_hazards.md R258): a quiescent block outside reset ticks without any upstream transaction and
its registers reach a fixed point within two ticks. -/
def Obligations.QuiescentBlockReachesAFixedPoint : Prop :=
  ∀ s : State, s.inReset = false → s.quiescent →
    ∃ t u v, exec .tick s = .next t ∧ exec .tick t = .next u ∧ exec .tick u = .next v ∧
      v.ch1 = u.ch1 ∧ v.ch2 = u.ch2 ∧ v.mem = s.mem ∧ v.quiescent ∧
      ∀ c, upAddrs c v.history = upAddrs c s.history
end

