-- ==== Sys2Proof/Laws/Memory.lean ====
section
/-! SUPPORT. The laws of the upstream memory: every operation keeps the canonical form, and what a read gives after a
write. -/

namespace Sys2Proof.Machine

/-- An address below all entries reads as an unlisted one. -/
theorem read_below {m : Memory} {low a : Nat} (h : m.wfFrom low = true) (ha : a < low) :
    m.read a = Memory.unlisted := by
  induction m generalizing low with
  | nil => rfl
  | cons p rest ih =>
    obtain ⟨k, b⟩ := p
    simp only [Memory.wfFrom, Bool.and_eq_true, decide_eq_true_eq] at h
    have hk : k ≠ a := by omega
    simp only [Memory.read, hk, if_false]
    exact ih h.2 (by omega)

/-- A lower bound may be lowered. -/
theorem wfFrom_mono {m : Memory} {low low' : Nat} (h : m.wfFrom low = true) (hl : low' ≤ low) :
    m.wfFrom low' = true := by
  cases m with
  | nil => rfl
  | cons p rest =>
    obtain ⟨k, b⟩ := p
    simp only [Memory.wfFrom, Bool.and_eq_true, decide_eq_true_eq] at h ⊢
    exact ⟨⟨⟨by omega, h.1.1.2⟩, h.1.2⟩, h.2⟩

/-- Putting an entry in front keeps the form. -/
theorem cons_wfFrom {m : Memory} {low a : Nat} {b : Byte} (h : m.wfFrom (a + 1) = true) (hl : low ≤ a)
    (ha : a < 2 ^ 32) : (Memory.cons a b m).wfFrom low = true := by
  unfold Memory.cons
  split
  · exact wfFrom_mono h (by omega)
  · rename_i hb
    simp only [Memory.wfFrom, Bool.and_eq_true, decide_eq_true_eq]
    exact ⟨⟨⟨hl, ha⟩, by simpa using hb⟩, h⟩

/-- What an entry put in front of higher entries reads as. -/
theorem read_cons {m : Memory} {a x : Nat} {b : Byte} (h : m.wfFrom (a + 1) = true) :
    (Memory.cons a b m).read x = if x = a then b else m.read x := by
  unfold Memory.cons
  split
  · rename_i hb
    split
    · rename_i hx
      rw [hb]
      exact read_below h (by omega)
    · rfl
  · by_cases hx : x = a
    · simp [Memory.read, hx]
    · simp [Memory.read, hx, Ne.symm hx]

/-- A write keeps the form. -/
theorem write_wfFrom {m : Memory} {low a : Nat} {b : Byte} (h : m.wfFrom low = true) (hl : low ≤ a)
    (ha : a < 2 ^ 32) : (m.write a b).wfFrom low = true := by
  induction m generalizing low with
  | nil => exact cons_wfFrom rfl hl ha
  | cons p rest ih =>
    obtain ⟨k, v⟩ := p
    simp only [Memory.wfFrom, Bool.and_eq_true, decide_eq_true_eq] at h
    obtain ⟨⟨⟨h1, h2⟩, h3⟩, h4⟩ := h
    simp only [Memory.write]
    split
    · refine cons_wfFrom ?_ hl ha
      simp only [Memory.wfFrom, Bool.and_eq_true, decide_eq_true_eq]
      exact ⟨⟨⟨by omega, h2⟩, h3⟩, h4⟩
    · split
      · rename_i hk
        exact cons_wfFrom (by rw [hk]; exact h4) hl ha
      · simp only [Memory.wfFrom, Bool.and_eq_true, decide_eq_true_eq]
        exact ⟨⟨⟨h1, h2⟩, h3⟩, ih h4 (by omega)⟩

/-- A read after a write: the byte written at its address, every other byte as before. -/
theorem read_write_from {m : Memory} {low a x : Nat} {b : Byte} (h : m.wfFrom low = true) :
    (m.write a b).read x = if x = a then b else m.read x := by
  induction m generalizing low with
  | nil => exact read_cons rfl
  | cons p rest ih =>
    obtain ⟨k, v⟩ := p
    simp only [Memory.wfFrom, Bool.and_eq_true, decide_eq_true_eq] at h
    obtain ⟨⟨⟨h1, h2⟩, h3⟩, h4⟩ := h
    simp only [Memory.write]
    split
    · refine read_cons ?_
      simp only [Memory.wfFrom, Bool.and_eq_true, decide_eq_true_eq]
      exact ⟨⟨⟨by omega, h2⟩, h3⟩, h4⟩
    · split
      · rename_i hk
        rw [read_cons (by rw [hk]; exact h4)]
        by_cases hx : x = a
        · simp [hx]
        · have : k ≠ x := by omega
          simp [hx, Memory.read, this]
      · rename_i hk hne
        simp only [Memory.read]
        by_cases hkx : k = x
        · have : x ≠ a := by omega
          simp [hkx, this]
        · simp only [hkx, if_false]
          exact ih h4

/-- Writing one byte at a bus address keeps the canonical form. -/
theorem setByte_wf {m : Memory} {a : Word} {b : Byte} (h : m.wf = true) : (m.setByte a b).wf = true :=
  write_wfFrom h (Nat.zero_le _) a.isLt

/-- A byte read after a byte written. -/
theorem byte_setByte {m : Memory} {a x : Word} {b : Byte} (h : m.wf = true) :
    (m.setByte a b).byte x = if x = a then b else m.byte x := by
  unfold Memory.byte Memory.setByte
  rw [read_write_from h]
  by_cases hx : x = a
  · simp [hx]
  · simp [hx, BitVec.toNat_inj]

/-- Writing four bytes keeps the canonical form. -/
theorem writeQuad_wf {m : Memory} {a : Word} {d : Quad} (h : m.wf = true) : (m.writeQuad a d).wf = true :=
  setByte_wf (setByte_wf (setByte_wf (setByte_wf h)))

/-- A byte read after four bytes written. -/
theorem byte_writeQuad {m : Memory} {a x : Word} {d : Quad} (h : m.wf = true) :
    (m.writeQuad a d).byte x =
      if x = a + 3 then d.b3 else if x = a + 2 then d.b2 else if x = a + 1 then d.b1
      else if x = a then d.b0 else m.byte x := by
  unfold Memory.writeQuad
  rw [byte_setByte (setByte_wf (setByte_wf (setByte_wf h))), byte_setByte (setByte_wf (setByte_wf h)),
    byte_setByte (setByte_wf h), byte_setByte h]

/-- The writes of other masters keep the canonical form. -/
theorem applyOthers_wf {m : Memory} {w : List (Word × Byte)} (h : m.wf = true) : (m.applyOthers w).wf = true := by
  induction w generalizing m with
  | nil => exact h
  | cons p rest ih => exact ih (setByte_wf h)

end Sys2Proof.Machine
end

