-- ==== Sys2Proof/Laws/State.lean ====
section
/-! SUPPORT. One lemma per field per update of the state, so that later proofs do not unfold record updates. -/

namespace Sys2Proof.Machine

variable (s : State) (c : Chan) (ch : Channel) (e : Event) (a : Word) (d : Quad)

@[simp] theorem chan_ch1 : s.chan .ch1 = s.ch1 := rfl
@[simp] theorem chan_ch2 : s.chan .ch2 = s.ch2 := rfl

@[simp] theorem setChan_ch1 : s.setChan .ch1 ch = { s with ch1 := ch } := rfl
@[simp] theorem setChan_ch2 : s.setChan .ch2 ch = { s with ch2 := ch } := rfl

@[simp] theorem setChan_chan_self : (s.setChan c ch).chan c = ch := by cases c <;> rfl
theorem setChan_chan_other {c c' : Chan} (h : c' ≠ c) : (s.setChan c ch).chan c' = s.chan c' := by
  cases c <;> cases c' <;> first | rfl | exact absurd rfl h
@[simp] theorem setChan_inReset : (s.setChan c ch).inReset = s.inReset := by cases c <;> rfl
@[simp] theorem setChan_cfg : (s.setChan c ch).cfg = s.cfg := by cases c <;> rfl
@[simp] theorem setChan_mem : (s.setChan c ch).mem = s.mem := by cases c <;> rfl
@[simp] theorem setChan_turns : (s.setChan c ch).turns = s.turns := by cases c <;> rfl
@[simp] theorem setChan_inputs : (s.setChan c ch).inputs = s.inputs := by cases c <;> rfl
@[simp] theorem setChan_draws : (s.setChan c ch).draws = s.draws := by cases c <;> rfl
@[simp] theorem setChan_history : (s.setChan c ch).history = s.history := by cases c <;> rfl

@[simp] theorem log_chan (c' : Chan) : (s.log e).chan c' = s.chan c' := by cases c' <;> rfl
@[simp] theorem log_ch1 : (s.log e).ch1 = s.ch1 := rfl
@[simp] theorem log_ch2 : (s.log e).ch2 = s.ch2 := rfl
@[simp] theorem log_inReset : (s.log e).inReset = s.inReset := rfl
@[simp] theorem log_cfg : (s.log e).cfg = s.cfg := rfl
@[simp] theorem log_mem : (s.log e).mem = s.mem := rfl
@[simp] theorem log_turns : (s.log e).turns = s.turns := rfl
@[simp] theorem log_inputs : (s.log e).inputs = s.inputs := rfl
@[simp] theorem log_draws : (s.log e).draws = s.draws := rfl
@[simp] theorem log_history : (s.log e).history = e :: s.history := rfl

@[simp] theorem openTurn_chan (c' : Chan) : s.openTurn.chan c' = s.chan c' := by cases c' <;> rfl
@[simp] theorem openTurn_inReset : s.openTurn.inReset = s.inReset := rfl
@[simp] theorem openTurn_cfg : s.openTurn.cfg = s.cfg := rfl
@[simp] theorem openTurn_mem : s.openTurn.mem = s.mem.applyOthers s.nextTurn.others := rfl
@[simp] theorem openTurn_turns : s.openTurn.turns = s.turns.tail := rfl
@[simp] theorem openTurn_inputs : s.openTurn.inputs = s.inputs := rfl
@[simp] theorem openTurn_draws : s.openTurn.draws = s.draws := rfl
@[simp] theorem openTurn_history : s.openTurn.history = s.history := rfl

@[simp] theorem afterRead_chan (c' : Chan) : (s.afterRead c a).chan c' = s.chan c' := by cases c' <;> rfl
@[simp] theorem afterRead_ch1 : (s.afterRead c a).ch1 = s.ch1 := rfl
@[simp] theorem afterRead_ch2 : (s.afterRead c a).ch2 = s.ch2 := rfl
@[simp] theorem afterRead_inReset : (s.afterRead c a).inReset = s.inReset := rfl
@[simp] theorem afterRead_cfg : (s.afterRead c a).cfg = s.cfg := rfl
@[simp] theorem afterRead_mem : (s.afterRead c a).mem = s.mem.applyOthers s.nextTurn.others := rfl
@[simp] theorem afterRead_turns : (s.afterRead c a).turns = s.turns.tail := rfl
@[simp] theorem afterRead_inputs : (s.afterRead c a).inputs = s.inputs := rfl
@[simp] theorem afterRead_draws :
    (s.afterRead c a).draws = if s.services a then s.draws else s.draws + 4 := rfl
@[simp] theorem afterRead_history : (s.afterRead c a).history = .upRead c a (s.readData a) :: s.history := rfl

@[simp] theorem afterWrite_chan (c' : Chan) : (s.afterWrite c a d).chan c' = s.chan c' := by cases c' <;> rfl
@[simp] theorem afterWrite_ch1 : (s.afterWrite c a d).ch1 = s.ch1 := rfl
@[simp] theorem afterWrite_ch2 : (s.afterWrite c a d).ch2 = s.ch2 := rfl
@[simp] theorem afterWrite_inReset : (s.afterWrite c a d).inReset = s.inReset := rfl
@[simp] theorem afterWrite_cfg : (s.afterWrite c a d).cfg = s.cfg := rfl
@[simp] theorem afterWrite_mem : (s.afterWrite c a d).mem =
    if s.services a then (s.mem.applyOthers s.nextTurn.others).writeQuad a d
    else s.mem.applyOthers s.nextTurn.others := rfl
@[simp] theorem afterWrite_turns : (s.afterWrite c a d).turns = s.turns.tail := rfl
@[simp] theorem afterWrite_inputs : (s.afterWrite c a d).inputs = s.inputs := rfl
@[simp] theorem afterWrite_draws : (s.afterWrite c a d).draws = s.draws := rfl
@[simp] theorem afterWrite_history : (s.afterWrite c a d).history = .upWrite c a d :: s.history := rfl

@[simp] theorem setChanIrq_chan_self : (s.setChanIrq c ch).chan c = ch := by cases c <;> rfl
theorem setChanIrq_chan_other {c c' : Chan} (h : c' ≠ c) : (s.setChanIrq c ch).chan c' = s.chan c' := by
  cases c <;> cases c' <;> first | rfl | exact absurd rfl h
@[simp] theorem setChanIrq_inReset : (s.setChanIrq c ch).inReset = s.inReset := by cases c <;> rfl
@[simp] theorem setChanIrq_cfg : (s.setChanIrq c ch).cfg = s.cfg := by cases c <;> rfl
@[simp] theorem setChanIrq_mem : (s.setChanIrq c ch).mem = s.mem := by cases c <;> rfl
@[simp] theorem setChanIrq_turns : (s.setChanIrq c ch).turns = s.turns := by cases c <;> rfl
@[simp] theorem setChanIrq_inputs : (s.setChanIrq c ch).inputs = s.inputs := by cases c <;> rfl
@[simp] theorem setChanIrq_draws : (s.setChanIrq c ch).draws = s.draws := by cases c <;> rfl
@[simp] theorem setChanIrq_history :
    (s.setChanIrq c ch).history = irqEvents c (s.chan c).irq ch.irq ++ s.history := by cases c <;> rfl

@[simp] theorem takeInput_chan (c' : Chan) : s.takeInput.chan c' = s.chan c' := by cases c' <;> rfl
@[simp] theorem takeInput_ch1 : s.takeInput.ch1 = s.ch1 := rfl
@[simp] theorem takeInput_ch2 : s.takeInput.ch2 = s.ch2 := rfl
@[simp] theorem takeInput_inReset : s.takeInput.inReset = s.inReset := rfl
@[simp] theorem takeInput_cfg : s.takeInput.cfg = s.cfg := rfl
@[simp] theorem takeInput_mem : s.takeInput.mem = s.mem := rfl
@[simp] theorem takeInput_turns : s.takeInput.turns = s.turns := rfl
@[simp] theorem takeInput_inputs : s.takeInput.inputs = s.inputs.tail := rfl
@[simp] theorem takeInput_draws : s.takeInput.draws = s.draws := rfl
@[simp] theorem takeInput_history : s.takeInput.history = s.history := rfl

@[simp] theorem assertReset_chan (c' : Chan) : s.assertReset.chan c' = Channel.reset := by cases c' <;> rfl
@[simp] theorem assertReset_inReset : s.assertReset.inReset = true := rfl
@[simp] theorem assertReset_cfg : s.assertReset.cfg = s.cfg := rfl
@[simp] theorem assertReset_mem : s.assertReset.mem = s.mem := rfl
@[simp] theorem assertReset_history : s.assertReset.history = resetEvents s ++ s.history := rfl

@[simp] theorem releaseReset_chan (c' : Chan) : s.releaseReset.chan c' = s.chan c' := by cases c' <;> rfl
@[simp] theorem releaseReset_inReset : s.releaseReset.inReset = false := rfl
@[simp] theorem releaseReset_cfg : s.releaseReset.cfg = s.cfg := rfl
@[simp] theorem releaseReset_mem : s.releaseReset.mem = s.mem := rfl

@[simp] theorem latched_win : ch.latched.win = ch.win := rfl
@[simp] theorem latched_eng :
    ch.latched.eng = ⟨ch.win.source, ch.win.target, ch.win.size, nonzero ch.win.control⟩ := rfl
@[simp] theorem latched_offset : ch.latched.offset = 0 := rfl
@[simp] theorem latched_irq : ch.latched.irq = false := rfl

@[simp] theorem signalled_win : ch.signalled.win = ch.win := rfl
@[simp] theorem signalled_eng :
    ch.signalled.eng = { ch.eng with ctrl := nonzero ch.win.control } := rfl
@[simp] theorem signalled_offset : ch.signalled.offset = ch.offset := rfl
@[simp] theorem signalled_irq : ch.signalled.irq = true := rfl

@[simp] theorem advanced_win : ch.advanced.win = ch.win := rfl
@[simp] theorem advanced_eng : ch.advanced.eng = ch.eng := rfl
@[simp] theorem advanced_offset : ch.advanced.offset = ch.offset + 4 := rfl
@[simp] theorem advanced_irq : ch.advanced.irq = ch.irq := rfl

@[simp] theorem setReg_eng (r : Reg) (v : Word) : (ch.setReg r v).eng = ch.eng := by cases r <;> rfl
@[simp] theorem setReg_offset (r : Reg) (v : Word) : (ch.setReg r v).offset = ch.offset := by cases r <;> rfl
@[simp] theorem setReg_irq (r : Reg) (v : Word) : (ch.setReg r v).irq = ch.irq := by cases r <;> rfl

end Sys2Proof.Machine
end

