-- ==== Sys2Proof/Laws/Ops.lean ====
section
/-! SUPPORT. What each shared operation can do, said once; callers cite these and do not unfold the operations. -/

namespace Sys2Proof.Machine

/-! ### Outcomes -/

@[simp] theorem andThen_next {α β : Type} (a : α) (f : α → Host.Outcome β Fault Refusal) :
    andThen (.next a) f = f a := rfl

@[simp] theorem andThen_refused {α β : Type} (r : Refusal) (f : α → Host.Outcome β Fault Refusal) :
    andThen (.refused r : Host.Outcome α Fault Refusal) f = .refused r := rfl

/-- A sequence answers a state exactly when both parts do. -/
theorem andThen_eq_next {α β : Type} {o : Host.Outcome α Fault Refusal} {f : α → Host.Outcome β Fault Refusal} {b : β} :
    andThen o f = .next b ↔ ∃ a, o = .next a ∧ f a = .next b := by
  cases o <;> simp [andThen]

/-- A sequence is refused when its first part is, or its second part is. -/
theorem andThen_eq_refused {α β : Type} {o : Host.Outcome α Fault Refusal} {f : α → Host.Outcome β Fault Refusal}
    {r : Refusal} : andThen o f = .refused r ↔ o = .refused r ∨ ∃ a, o = .next a ∧ f a = .refused r := by
  cases o <;> simp [andThen]

/-! ### The conditions -/

/-- The tick selector chooses by the logical state (30_encoding.md R87). -/
theorem selected_eq (s : State) (c : Chan) : s.selected c =
    if (s.chan c).unconfigured then .latch else if (s.chan c).active then .step else .signal := by
  unfold State.selected Channel.sel Channel.unconfigured Channel.active
  cases (s.chan c).eng.ctrl <;> cases (s.chan c).below <;> rfl

/-- An Active channel is not Unconfigured. -/
theorem not_unconfigured_of_active {ch : Channel} (h : ch.active = true) : ch.unconfigured = false := by
  unfold Channel.active at h
  unfold Channel.unconfigured
  simp_all

/-- The offset is below SIZE exactly as numbers are. -/
theorem below_iff (ch : Channel) : ch.below = true ↔ ch.offset.toNat < ch.eng.size.toNat := by
  simp [Channel.below, BitVec.ult]

/-! ### The own window -/

/-- The range test says what 20_memory.md R68 asks: some address of the range lies in the window. -/
theorem rangeMeetsWindow_iff {cfg : Config} {a : Word} {n : Nat} (hn : n ≤ 2 ^ 32) :
    rangeMeetsWindow cfg a n = true ↔ ∃ k, k < n ∧ inWindow cfg (a + BitVec.ofNat 32 k) = true := by
  obtain ⟨base, order, un⟩ := cfg
  simp only [rangeMeetsWindow, inWindow, BitVec.ult, Bool.and_eq_true, Bool.or_eq_true, decide_eq_true_eq]
  have ha := a.isLt
  have hb := base.isLt
  constructor
  · rintro ⟨h0, h | h⟩
    · exact ⟨0, h0, by simpa using h⟩
    · refine ⟨(base - a).toNat, h, ?_⟩
      have e : a + BitVec.ofNat 32 (base - a).toNat = base := by
        rw [BitVec.ofNat_toNat, BitVec.setWidth_eq, BitVec.add_comm, BitVec.sub_add_cancel]
      rw [e]
      simp
  · rintro ⟨k, hk, h⟩
    refine ⟨by omega, ?_⟩
    simp only [BitVec.toNat_sub, BitVec.toNat_add, BitVec.toNat_ofNat] at h ⊢
    omega

/-- A transaction is not refused exactly when configuration and access keep off the window. -/
theorem refuses_eq_false {s : State} {c : Chan} {a : Word} :
    s.refuses c a = false ↔ (s.chan c).eng.meetsWindow s.cfg = false ∧ touchesWindow s.cfg a = false := by
  simp [State.refuses]

/-- A LATCH that finds CONTROL 0 arms nothing. -/
theorem armsOwnWindow_of_control_zero {cfg : Config} {ch : Channel} (h : ch.win.control = 0) :
    ch.armsOwnWindow cfg = false := by
  simp [Channel.armsOwnWindow, nonzero, h]

/-- A LATCH arms no such transfer exactly when the armed configuration keeps off the window. -/
theorem armsOwnWindow_eq_false {cfg : Config} {ch : Channel} :
    ch.armsOwnWindow cfg = false ↔ (ch.win.control ≠ 0 → ch.latched.eng.meetsWindow cfg = false) := by
  simp [Channel.armsOwnWindow, nonzero]

/-! ### The upstream port -/

/-- An upstream read answers a state exactly where it is not refused. -/
theorem upRead_eq_next {c : Chan} {s t : State} :
    upRead c s = .next t ↔ s.refuses c (s.chan c).readAddr = false ∧ t = s.afterRead c (s.chan c).readAddr := by
  unfold upRead
  cases s.refuses c (s.chan c).readAddr <;> simp [eq_comm]

/-- An upstream write answers a state exactly where it is not refused. -/
theorem upWrite_eq_next {c : Chan} {d : Quad} {s t : State} :
    upWrite c d s = .next t ↔
      s.refuses c (s.chan c).writeAddr = false ∧ t = s.afterWrite c (s.chan c).writeAddr d := by
  unfold upWrite
  cases s.refuses c (s.chan c).writeAddr <;> simp [eq_comm]

/-! ### The tick operations -/

/-- The state a LATCH ends in. -/
theorem latchOp_eq_next {c : Chan} {s t : State} :
    latchOp c s = .next t ↔
      (s.chan c).armsOwnWindow s.cfg = false ∧ t = s.setChanIrq c (s.chan c).latched := by
  unfold latchOp
  cases (s.chan c).armsOwnWindow s.cfg <;> simp [eq_comm]

/-- A LATCH is refused only for a configuration that includes the block's own window (20_memory.md R68). -/
theorem latchOp_eq_refused {c : Chan} {s : State} {r : Refusal} :
    latchOp c s = .refused r ↔ r = .ownWindow ∧ (s.chan c).armsOwnWindow s.cfg = true := by
  unfold latchOp
  cases (s.chan c).armsOwnWindow s.cfg <;> simp [eq_comm]

/-- The state a STEP ends in. -/
theorem stepOp_eq_next {c : Chan} {s t : State} :
    stepOp c s = .next t ↔
      s.refuses c (s.chan c).readAddr = false ∧ s.refuses c (s.chan c).writeAddr = false ∧
      t = ((s.afterRead c (s.chan c).readAddr).afterWrite c (s.chan c).writeAddr
            (s.readData (s.chan c).readAddr)).setChan c (s.chan c).advanced := by
  unfold stepOp
  simp only [andThen_eq_next, upRead_eq_next, upWrite_eq_next]
  constructor
  · rintro ⟨s1, ⟨h1, rfl⟩, s2, ⟨h2, rfl⟩, h3⟩
    simp only [refuses_eq_false, afterRead_chan, afterRead_cfg, afterWrite_chan, Host.Outcome.next.injEq] at h2 h3
    exact ⟨h1, refuses_eq_false.2 h2, h3.symm⟩
  · rintro ⟨h1, h2, rfl⟩
    exact ⟨_, ⟨h1, rfl⟩, _, ⟨by simpa [refuses_eq_false] using h2, rfl⟩, by simp⟩

/-- A STEP is refused only where its read or its write is (20_memory.md R68). -/
theorem stepOp_eq_refused {c : Chan} {s : State} {r : Refusal} :
    stepOp c s = .refused r ↔
      r = .ownWindow ∧ (s.refuses c (s.chan c).readAddr = true ∨ s.refuses c (s.chan c).writeAddr = true) := by
  have hw : (s.afterRead c (s.chan c).readAddr).refuses c (s.chan c).writeAddr = s.refuses c (s.chan c).writeAddr := by
    simp [State.refuses]
  unfold stepOp upRead upWrite
  cases h1 : s.refuses c (s.chan c).readAddr <;> cases h2 : s.refuses c (s.chan c).writeAddr <;>
    simp [hw, h2, @eq_comm _ Refusal.ownWindow r]

/-- What an evaluation does to the registers and what it leaves alone (41_transfer_engine.md R141 to R147, R154). -/
theorem evalChannel_regs {c : Chan} {s t : State} (h : evalChannel c s = .next t) :
    t.chan c = (s.chan c).evaluated ∧ (∀ c', c' ≠ c → t.chan c' = s.chan c') ∧
    t.inReset = s.inReset ∧ t.cfg = s.cfg ∧ t.inputs = s.inputs := by
  unfold evalChannel at h
  rw [selected_eq] at h
  unfold Channel.evaluated
  by_cases hu : (s.chan c).unconfigured = true
  · simp only [hu, if_true, tickOp, latchOp_eq_next] at h ⊢
    obtain ⟨-, rfl⟩ := h
    refine ⟨?_, fun c' hc => ?_, ?_, ?_, ?_⟩
    · simp
    · exact setChanIrq_chan_other _ _ hc
    all_goals simp
  · by_cases ha : (s.chan c).active = true
    · simp only [hu, ha, if_true, tickOp, stepOp_eq_next, Bool.false_eq_true, if_false] at h ⊢
      obtain ⟨-, -, rfl⟩ := h
      refine ⟨?_, fun c' hc => ?_, ?_, ?_, ?_⟩
      · simp
      · rw [setChan_chan_other _ _ hc]; simp
      all_goals simp
    · simp only [hu, ha, tickOp, Host.Outcome.next.injEq, Bool.false_eq_true, if_false] at h ⊢
      subst h
      refine ⟨?_, fun c' hc => ?_, ?_, ?_, ?_⟩
      · simp [signalOp]
      · exact setChanIrq_chan_other _ _ hc
      all_goals simp [signalOp]

/-- An evaluation of a channel that is not Active answers exactly off the window, adds no upstream event and leaves the
environment alone. -/
theorem evalChannel_idle {c : Chan} {s : State} (h : (s.chan c).active = false) :
    evalChannel c s =
      if (s.chan c).unconfigured && (s.chan c).armsOwnWindow s.cfg then .refused .ownWindow
      else .next (s.setChanIrq c (s.chan c).evaluated) := by
  unfold evalChannel
  rw [selected_eq]
  unfold Channel.evaluated
  by_cases hu : (s.chan c).unconfigured = true
  · simp [hu, tickOp, latchOp]
  · simp [hu, h, tickOp, signalOp]

/-- The state an evaluation of a channel that is not Active ends in. -/
theorem evalChannel_idle_eq_next {c : Chan} {s t : State} (h : (s.chan c).active = false) :
    evalChannel c s = .next t ↔
      ((s.chan c).unconfigured = true → (s.chan c).armsOwnWindow s.cfg = false) ∧
        t = s.setChanIrq c (s.chan c).evaluated := by
  rw [evalChannel_idle h]
  cases (s.chan c).unconfigured <;> cases (s.chan c).armsOwnWindow s.cfg <;> simp [eq_comm]

/-- An evaluation of an Active channel is its STEP. -/
theorem evalChannel_active {c : Chan} {s : State} (h : (s.chan c).active = true) :
    evalChannel c s = stepOp c s := by
  unfold evalChannel
  rw [selected_eq]
  simp [not_unconfigured_of_active h, h, tickOp]

/-! ### The register writes -/

/-- What a register write does to the registers, the environment and the history. -/
theorem regWrite_cases (s : State) (c : Chan) (r : Reg) (v : Word) :
    (s.accepts c = true ∧
      s.regWrite c r v = (s.log (regWriteEvent s.cfg c r v)).setChan c ((s.chan c).setReg r v)) ∨
    (s.accepts c = false ∧ s.regWrite c r v = s.log (regWriteEvent s.cfg c r v)) := by
  unfold State.regWrite
  by_cases h : s.accepts c = true <;> simp [h]

end Sys2Proof.Machine
end

