-- ==== Sys2Proof/Laws/PerInstr.lean ====
section
/-! SUPPORT. One lemma per operation for each statement that is made per instruction. -/

/-- The frame the encoder writes belongs to the class of the operation (30_encoding.md R80). -/
def Sys2Proof.Laws.Format.Statement (i : Sys2Proof.Instr) : Prop :=
  ∀ cfg : Sys2Proof.Config, (Sys2Proof.encode cfg i).format = i.format

namespace Sys2Proof.Laws.Format

theorem wrSource1 (v : Word) : Statement (.wrSource1 v) := fun _ => rfl
theorem wrTarget1 (v : Word) : Statement (.wrTarget1 v) := fun _ => rfl
theorem wrSize1 (v : Word) : Statement (.wrSize1 v) := fun _ => rfl
theorem wrControl1 (v : Word) : Statement (.wrControl1 v) := fun _ => rfl
theorem wrSource2 (v : Word) : Statement (.wrSource2 v) := fun _ => rfl
theorem wrTarget2 (v : Word) : Statement (.wrTarget2 v) := fun _ => rfl
theorem wrSize2 (v : Word) : Statement (.wrSize2 v) := fun _ => rfl
theorem wrControl2 (v : Word) : Statement (.wrControl2 v) := fun _ => rfl
theorem wrNop (off : Word) (data : List Byte) : Statement (.wrNop off data) := fun _ => rfl
theorem rd (addr : Word) (len : Nat) : Statement (.rd addr len) := fun _ => rfl
theorem tick : Statement .tick := fun _ => rfl
theorem latch1 : Statement .latch1 := fun _ => rfl
theorem step1 : Statement .step1 := fun _ => rfl
theorem signal1 : Statement .signal1 := fun _ => rfl
theorem latch2 : Statement .latch2 := fun _ => rfl
theorem step2 : Statement .step2 := fun _ => rfl
theorem signal2 : Statement .signal2 := fun _ => rfl
theorem resetAssert : Statement .resetAssert := fun _ => rfl
theorem resetRelease : Statement .resetRelease := fun _ => rfl
theorem uprd (c : Chan) : Statement (.uprd c) := fun _ => rfl
theorem upwr (c : Chan) (d : Quad) : Statement (.upwr c d) := fun _ => rfl

end Sys2Proof.Laws.Format
end

