-- ==== Sys2Proof/Tests/Slice0.lean ====
section
/-! SUPPORT. Tests. The expected results are those of 95_test_vectors.md (the vector's name stands beside each test) or are
worked by hand from the rule cited. Then, for each statement with hypotheses, a named witness that meets them. -/

namespace Sys2Proof.Tests

open Sys2Proof Sys2Proof.Machine

/-! ### Helpers -/

/-- The state of an outcome, if it has one. -/
def after (o : Host.Outcome State Fault Refusal) : Option State :=
  match o with
  | .next s => some s
  | .fault _ => none
  | .refused _ => none

/-- The refusal of an outcome, if it is one. -/
def stop (o : Host.Outcome State Fault Refusal) : Option Refusal :=
  match o with
  | .next _ => none
  | .fault _ => none
  | .refused r => some r

/-- The bytes `11 22 33 44 55 66 77 88` at 0x1000 (95_test_vectors.md section 2.7). -/
def bytesAt1000 : Memory :=
  [⟨0x1000, 0x11⟩, ⟨0x1001, 0x22⟩, ⟨0x1002, 0x33⟩, ⟨0x1003, 0x44⟩] ++
  [⟨0x1004, 0x55⟩, ⟨0x1005, 0x66⟩, ⟨0x1006, 0x77⟩, ⟨0x1007, 0x88⟩]

/-- A channel whose window and working copies hold the same SOURCE, TARGET and SIZE. -/
def channel (source target size control : Word) (ctrl : Bool) (offset : Word) (irq : Bool) : Channel :=
  ⟨⟨source, target, size, control⟩, ⟨source, target, size, ctrl⟩, offset, irq⟩

/-- The reset state with the two channels and the memory given. -/
def machine (ch1 ch2 : Channel) : State := { State.reset with ch1 := ch1, ch2 := ch2, mem := bytesAt1000 }

/-- Armed, not yet latched (V-LAT2). -/
def armed : Channel := ⟨⟨0x1000, 0x2000, 8, 1⟩, ⟨0, 0, 0, false⟩, 0, false⟩

/-- Armed with SIZE 0 (V-LAT4, V-ZERO). -/
def armedEmpty : Channel := ⟨⟨0x1000, 0x2000, 0, 7⟩, ⟨0, 0, 0, false⟩, 0, false⟩

/-- At the first word of eight bytes (V-STP0). -/
def atStart : Channel := channel 0x1000 0x2000 8 1 true 0 false

/-- At the second word of eight bytes (V-STP1). -/
def atSecond : Channel := channel 0x1000 0x2000 8 1 true 4 false

/-- Complete, the line not yet true (V-SIG0). -/
def copied : Channel := channel 0x1000 0x2000 8 1 true 8 false

/-- Complete with the line true (V-SIG1). -/
def signalling : Channel := channel 0x1000 0x2000 8 1 true 8 true

/-- Complete with the line true and the acknowledge written (V-SIG2). -/
def acknowledged : Channel := channel 0x1000 0x2000 8 0 true 8 true

/-- Unconfigured with the line still true (V-LAT3). -/
def falling : Channel := channel 0x1000 0x2000 8 0 false 8 true

/-- Its read and its write lie in the block's own window (R68). -/
def inOwnWindow : Channel := channel 0x40000000 0x4000001C 4 1 true 0 false

/-- Another master writes one byte before each of two transactions; the second is not serviced (R66, R69). -/
def twoTurns : List Turn := [⟨[(0x1004, 0xAA)], true⟩, ⟨[(0x2005, 0xBB)], false⟩]

/-- Armed in the window, not latched; the range starts 4 bytes below the register window and its second word is in it. -/
def reachingWindow : Channel := ⟨⟨0x1000, 0x3FFFFFFC, 8, 1⟩, ⟨0, 0, 0, false⟩, 0, false⟩

/-- The word at its source ends just below the register window; a second word would be in it. -/
def reachingBySize (size : Word) : Engine := ⟨0x3FFFFFFC, 0x2000, size, true⟩

/-- The four bytes `78 56 34 12` of section 2.1. -/
def d78 : List Byte := [0x78, 0x56, 0x34, 0x12]

/-! ### WellFormed: ill-formed terms are refused -/

theorem test_wf_refuses_first_register_as_nop : (Instr.wrNop 0x00 [0, 0, 0, 0]).wf = false := by decide
theorem test_wf_refuses_last_register_as_nop : (Instr.wrNop 0x1C [0, 0, 0, 0]).wf = false := by decide
theorem test_wf_accepts_other_offset : (Instr.wrNop 0x20 [0, 0, 0, 0]).wf = true := by decide
theorem test_wf_accepts_misaligned_offset : (Instr.wrNop 0x02 [0, 0, 0, 0]).wf = true := by decide
theorem test_wf_accepts_other_length : (Instr.wrNop 0x00 [0, 0, 0]).wf = true := by decide

/-! ### Decoding (95_test_vectors.md sections 2.1, 2.5; 30_encoding.md R86 to R89) -/

theorem test_decode_wrSource1 : decode Config.reference (.write 0x40000000 d78) = .wrSource1 0x12345678 := by decide
theorem test_decode_wrTarget1 : decode Config.reference (.write 0x40000004 d78) = .wrTarget1 0x12345678 := by decide
theorem test_decode_wrSize1 : decode Config.reference (.write 0x40000008 d78) = .wrSize1 0x12345678 := by decide
theorem test_decode_wrControl1 : decode Config.reference (.write 0x4000000C d78) = .wrControl1 0x12345678 := by decide
theorem test_decode_wrSource2 : decode Config.reference (.write 0x40000010 d78) = .wrSource2 0x12345678 := by decide
theorem test_decode_wrTarget2 : decode Config.reference (.write 0x40000014 d78) = .wrTarget2 0x12345678 := by decide
theorem test_decode_wrSize2 : decode Config.reference (.write 0x40000018 d78) = .wrSize2 0x12345678 := by decide
theorem test_decode_wrControl2 : decode Config.reference (.write 0x4000001C d78) = .wrControl2 0x12345678 := by decide
/-- V-DEC8 to V-DEC12. -/
theorem test_decode_wrNop_offsets :
    decode Config.reference (.write 0x40000020 d78) = .wrNop 0x20 d78 ∧
    decode Config.reference (.write 0x40000024 d78) = .wrNop 0x24 d78 ∧
    decode Config.reference (.write 0x3FFFFFFC d78) = .wrNop 0xFFFFFFFC d78 ∧
    decode Config.reference (.write 0x40000002 d78) = .wrNop 0x02 d78 ∧
    decode Config.reference (.write 0x4000000E d78) = .wrNop 0x0E d78 := by decide
/-- V-DEC13 to V-DEC15. -/
theorem test_decode_wrNop_lengths :
    decode Config.reference (.write 0x40000000 [0x78]) = .wrNop 0x00 [0x78] ∧
    decode Config.reference (.write 0x40000000 [0x78, 0x56]) = .wrNop 0x00 [0x78, 0x56] ∧
    decode Config.reference (.write 0x40000000 (d78 ++ [0xEF, 0xCD, 0xAB, 0x89])) =
      .wrNop 0x00 (d78 ++ [0xEF, 0xCD, 0xAB, 0x89]) := by decide
/-- V-DEC16. -/
theorem test_decode_big_endian :
    decode ⟨0x40000000, .big, []⟩ (.write 0x40000000 d78) = .wrSource1 0x78563412 := by decide
theorem test_decode_rd : decode Config.reference (.read 0x40000040 1) = .rd 0x40000040 1 := by decide
theorem test_decode_tick : decode Config.reference .tick = .tick := by decide
/-- V-SEL0 to V-SEL2: both selectors with CTRL false. -/
theorem test_decode_latch :
    decode Config.reference (.select .ch1 0b00) = .latch1 ∧ decode Config.reference (.select .ch1 0b01) = .latch1 ∧
    decode Config.reference (.select .ch2 0b00) = .latch2 ∧ decode Config.reference (.select .ch2 0b01) = .latch2 := by
  decide
theorem test_decode_step :
    decode Config.reference (.select .ch1 0b11) = .step1 ∧ decode Config.reference (.select .ch2 0b11) = .step2 := by
  decide
theorem test_decode_signal :
    decode Config.reference (.select .ch1 0b10) = .signal1 ∧ decode Config.reference (.select .ch2 0b10) = .signal2 := by
  decide
theorem test_decode_reset :
    decode Config.reference (.resetLine true) = .resetAssert ∧
    decode Config.reference (.resetLine false) = .resetRelease := by decide
theorem test_decode_upstream :
    decode Config.reference (.upRead .ch2) = .uprd .ch2 ∧
    decode Config.reference (.upWrite .ch1 ⟨1, 2, 3, 4⟩) = .upwr .ch1 ⟨1, 2, 3, 4⟩ := by decide
/-- V-SEL0 to V-SEL9: the selector of a channel's state, the compare unsigned. -/
theorem test_selector :
    (channel 0 0 0 0 false 0 false).sel = 0b00 ∧ (channel 0 0 8 0 false 0 false).sel = 0b01 ∧
    (channel 0 0 8 0 false 8 false).sel = 0b00 ∧ (channel 0 0 8 0 true 0 false).sel = 0b11 ∧
    (channel 0 0 8 0 true 8 false).sel = 0b10 ∧ (channel 0 0 0 0 true 0 false).sel = 0b10 ∧
    (channel 0 0 6 0 true 8 false).sel = 0b10 ∧ (channel 0 0 0x80000000 0 true 0x7FFFFFFC false).sel = 0b11 ∧
    (channel 0 0 0x80000000 0 true 0x80000000 false).sel = 0b10 := by decide
/-- The table's words: a window offset, and a selector read as channel 1's (log 6). -/
theorem test_table_words :
    decodeTableWord 32 0x0C = some (.wrControl1 0) ∧ decodeTableWord 32 0x1C = some (.wrControl2 0) ∧
    decodeTableWord 8 0 = some .latch1 ∧ decodeTableWord 8 3 = some .step1 ∧ decodeTableWord 8 2 = some .signal1 ∧
    decodeTableWord 8 4 = none := by decide
/-- A placed register word and a placed selector word are what the next step runs, and it completes. -/
theorem test_placed_word_runs :
    (State.reset.withFetchWord 32 0x14).nextInstr = .wrTarget2 0 ∧
    (State.reset.withFetchWord 8 3).nextInstr = .step1 ∧
    (after (step (State.reset.withFetchWord 32 0x14))).isSome = true ∧
    (after (step (State.reset.withFetchWord 8 3))).isSome = true := by decide

/-! ### The register window -/

/-- V-DEC0, V-DEC1 and V-DEC2: the value lands in the named register alone. -/
theorem test_wrSource1 : (after (exec (.wrSource1 0x12345678) State.reset)).map (·.ch1.win) =
    some ⟨0x12345678, 0, 0, 0⟩ := by decide
theorem test_wrTarget1 : (after (exec (.wrTarget1 0x12345678) State.reset)).map (·.ch1.win) =
    some ⟨0, 0x12345678, 0, 0⟩ := by decide
theorem test_wrSize1 : (after (exec (.wrSize1 0x12345678) State.reset)).map (·.ch1.win) =
    some ⟨0, 0, 0x12345678, 0⟩ := by decide
/-- V-GRD2: dropped while Active. -/
theorem test_wrSize1_active : (after (exec (.wrSize1 0x10) (machine atSecond Channel.reset))).map (·.ch1) =
    some atSecond := by decide
/-- V-DEC3: it arms and does not start. -/
theorem test_wrControl1 : (after (exec (.wrControl1 1) State.reset)).map (·.ch1) =
    some ⟨⟨0, 0, 0, 1⟩, ⟨0, 0, 0, false⟩, 0, false⟩ := by decide
/-- Scenario B, step 1: the line and the control flag stay. -/
theorem test_wrControl1_acknowledge :
    (after (exec (.wrControl1 0) (machine signalling Channel.reset))).map (·.ch1) = some acknowledged := by decide
theorem test_wrSource2 : (after (exec (.wrSource2 0x12345678) State.reset)).map (·.ch2.win) =
    some ⟨0x12345678, 0, 0, 0⟩ := by decide
/-- Program P3, line 4: dropped while channel 2 is Active. -/
theorem test_wrSource2_active : (after (exec (.wrSource2 0x5000) (machine Channel.reset atSecond))).map (·.ch2) =
    some atSecond := by decide
theorem test_wrTarget2 : (after (exec (.wrTarget2 0x12345678) State.reset)).map (·.ch2.win) =
    some ⟨0, 0x12345678, 0, 0⟩ := by decide
/-- V-GRD3: the guard is per channel. -/
theorem test_wrSize2 : (after (exec (.wrSize2 0x10) (machine atSecond Channel.reset))).map (·.ch2.win) =
    some ⟨0, 0, 0x10, 0⟩ := by decide
theorem test_wrControl2 : (after (exec (.wrControl2 0x80000000) State.reset)).map (·.ch2.win) =
    some ⟨0, 0, 0, 0x80000000⟩ := by decide
/-- V-RST1: dropped in reset, answered `OK`. -/
theorem test_write_in_reset :
    (after (exec (.wrSource1 0x1000) State.reset.assertReset)).map (fun s => (s.ch1, s.history.head?)) =
      some (Channel.reset, some (.dnWrite 0x40000000 [0x00, 0x10, 0x00, 0x00] .ok)) := by decide
/-- V-DEC11: no register is partly written. -/
theorem test_wrNop : (after (exec (.wrNop 0x02 d78) State.reset)).map (fun s => (s.ch1, s.ch2)) =
    some (Channel.reset, Channel.reset) := by decide
/-- V-RD1: a read does not acknowledge. -/
theorem test_rd : (after (exec (.rd 0x4000000C 4) (machine signalling Channel.reset))).map (·.ch1) =
    some signalling := by decide

/-! ### The transfer engine -/

/-- V-LAT2, V-LAT3 (the line falls) and V-LAT4. -/
theorem test_latch1 :
    (after (exec .latch1 (machine armed Channel.reset))).map (·.ch1) = some atStart ∧
    (after (exec .latch1 (machine falling Channel.reset))).map (·.ch1) =
      some (channel 0x1000 0x2000 8 0 false 0 false) := by decide
theorem test_latch2 : (after (exec .latch2 (machine Channel.reset armedEmpty))).map (·.ch2) =
    some (channel 0x1000 0x2000 0 7 true 0 false) := by decide
/-- V-STP0. -/
theorem test_step1 : (after (exec .step1 (machine atStart Channel.reset))).map
    (fun s => (s.ch1, s.mem.readQuad 0x2000)) = some (atSecond, ⟨0x11, 0x22, 0x33, 0x44⟩) := by decide
/-- V-STP3: the target wraps around the top of the address space. V-STP6: the offset wraps, the channel Active again. -/
theorem test_step1_wrap :
    (after (exec .step1 (machine (channel 0x1000 0x2000 0xFFFFFFFE 1 true 0xFFFFFFFC false) Channel.reset))).map
      (fun s => (s.ch1.offset, s.ch1.active)) = some (0, true) ∧
    (after (exec .step1 (machine (channel 0x1000 0xFFFFFFFE 8 1 true 0 false) Channel.reset))).map
      (fun s => (s.mem.byte 0xFFFFFFFE, s.mem.byte 0xFFFFFFFF, s.mem.byte 0, s.mem.byte 1)) =
    some (0x11, 0x22, 0x33, 0x44) := by decide
/-- V-STP4: a misaligned source. -/
theorem test_step2 :
    (after (exec .step2 (machine Channel.reset (channel 0x1001 0x2000 8 1 true 0 false)))).map
      (fun s => s.mem.readQuad 0x2000) = some ⟨0x22, 0x33, 0x44, 0x55⟩ := by decide
/-- V-STP2: the read address wraps to 0. -/
theorem test_step2_source_wrap :
    (after (exec .step2 (machine Channel.reset (channel 0xFFFFFFFC 0x2000 8 1 true 4 false)))).map (·.history) =
    some [.upWrite .ch2 0x2004 ⟨0, 0, 0, 0⟩, .upRead .ch2 0x00000000 ⟨0, 0, 0, 0⟩] := by decide
/-- V-SIG0 and V-SIG2. -/
theorem test_signal1 : (after (exec .signal1 (machine copied Channel.reset))).map (·.ch1) = some signalling := by decide
theorem test_signal2 : (after (exec .signal2 (machine Channel.reset acknowledged))).map (·.ch2) = some falling := by
  decide
/-- Program P2, line 6, with the bytes of section 2.7: channel 2 reads what channel 1 wrote in the same tick. -/
theorem test_tick :
    (after (exec .tick (machine atStart (channel 0x2000 0x3000 8 1 true 0 false)))).map
      (fun s => (s.mem.readQuad 0x3000, s.ch1.offset, s.ch2.offset)) =
    some (⟨0x11, 0x22, 0x33, 0x44⟩, 4, 4) := by decide
/-- V-RST2. -/
theorem test_tick_in_reset : (after (exec .tick State.reset.assertReset)) = some State.reset.assertReset := by decide

/-! ### Reset and the upstream port -/

/-- Scenario D. -/
theorem test_resetAssert :
    (after (exec .resetAssert (machine atSecond signalling))).map (fun s => (s.ch1, s.ch2, s.inReset, s.mem)) =
    some (Channel.reset, Channel.reset, true, bytesAt1000) := by decide
/-- The fall of a true line belongs to the event (43_bus_sequencer.md R195, log 12). -/
theorem test_resetAssert_events : (after (exec .resetAssert (machine atSecond signalling))).map (·.history) =
    some [.irq .ch2 false, .resetAssert] := by decide
/-- V-RST3. -/
theorem test_resetRelease : (after (exec .resetRelease State.reset.assertReset)).map (·.inReset) = some false := by decide
/-- V-STP1's read. -/
theorem test_uprd : (after (exec (.uprd .ch1) (machine atSecond Channel.reset))).map (·.history) =
    some [.upRead .ch1 0x1004 ⟨0x55, 0x66, 0x77, 0x88⟩] := by decide
/-- V-STP1's write. -/
theorem test_upwr :
    (after (exec (.upwr .ch1 ⟨0x55, 0x66, 0x77, 0x88⟩) (machine atSecond Channel.reset))).map
      (fun s => (s.mem.readQuad 0x2004, s.ch1)) = some (⟨0x55, 0x66, 0x77, 0x88⟩, atSecond) := by decide
/-- 20_memory.md R68: the configuration's length is SIZE rounded up; SIZE 0 has no address; from 0xFFFFFFE1 to
0xFFFFFFFC every placement meets the window; above that U4's transfers are excepted (log 11). -/
theorem test_refused_configurations :
    (reachingBySize 4).meetsWindow Config.reference = false ∧ (reachingBySize 5).meetsWindow Config.reference = true ∧
    (reachingBySize 0).meetsWindow Config.reference = false ∧
    (Engine.mk 0x40000020 0x2000 0xFFFFFFE0 true).meetsWindow Config.reference = true ∧
    (Engine.mk 0x40000020 0x40000020 0xFFFFFFE0 true).meetsWindow Config.reference = false ∧
    (Engine.mk 0x40000020 0x40000020 0xFFFFFFE1 true).meetsWindow Config.reference = true ∧
    (Engine.mk 0x40000020 0x40000020 0xFFFFFFFC true).meetsWindow Config.reference = true ∧
    (Engine.mk 0x1000 0x2000 0xFFFFFFFD true).meetsWindow Config.reference = false := by decide
/-- 20_memory.md R68: refused as it is latched and as it is stepped; with CONTROL 0 the LATCH arms nothing and runs. -/
theorem test_own_window :
    stop (exec .step1 (machine inOwnWindow Channel.reset)) = some .ownWindow ∧
    stop (exec .latch1 (machine reachingWindow Channel.reset)) = some .ownWindow ∧
    stop (exec .tick (machine Channel.reset reachingWindow)) = some .ownWindow ∧
    stop (exec .latch1 (machine { reachingWindow with win := ⟨0x1000, 0x3FFFFFFC, 8, 0⟩ } Channel.reset)) = none := by
  decide
/-- 20_memory.md R69: an unserviced write stores nothing and the transfer goes on. -/
theorem test_unserviced_write :
    (after (exec .step1
      { machine atStart Channel.reset with cfg := ⟨0x40000000, .little, [(0x2000, 0x2FFF)]⟩ })).map
      (fun s => (s.mem, s.ch1.offset)) = some (bytesAt1000, 4) := by decide

/-! ### Witnesses: each statement's hypotheses are met together, each clause by itself -/

/-- DecodeEncodeRoundTrip. -/
theorem test_witness_roundTrip : (Instr.wrNop 0xFFFFFFFC d78).wf = true ∧ (Instr.wrControl2 0xFFFFFFFF).wf = true := by
  decide

/-- TickSelectorTable: CTRL false; the last offset below SIZE; the first offset not below it. -/
theorem test_witness_selector :
    (channel 0 0 8 0 false 8 false).eng.ctrl = false ∧
    ((channel 0 0 8 0 true 4 false).eng.ctrl = true ∧ (channel 0 0 8 0 true 4 false).offset < (8 : Word)) ∧
    ((channel 0 0 8 0 true 8 false).eng.ctrl = true ∧ (8 : Word) ≤ (channel 0 0 8 0 true 8 false).offset) := by decide

/-- StepRunsTheDecodedOperation: a state for each clause. -/
theorem test_witness_step_inputs (x : Stimulus) :
    { State.reset with inputs := [x] }.inputs = x :: [] ∧ State.reset.inputs = [] := ⟨rfl, rfl⟩

/-- StepStopsOnlyAtTheOwnWindow: all cases occur. -/
theorem test_witness_step_stops :
    stop (step (machine inOwnWindow Channel.reset)) = some .ownWindow ∧
    stop (step (machine Channel.reset reachingWindow)) = some .ownWindow ∧
    (after (step State.reset)).isSome = true := by decide

/-- RegisterWritesOfChannel1, RegisterWritesOfChannel2 and the first clauses of ControlWritesArmAndAcknowledge: accepted
when Unconfigured and when Complete, dropped when Active and in reset. -/
theorem test_witness_register_writes (c : Chan) :
    ((machine signalling armed).inReset = false ∧ ((machine signalling armed).chan c).active = false) ∧
    ((machine atSecond atSecond).chan c).active = true ∧ State.reset.assertReset.inReset = true := by
  cases c <;> decide

/-- ControlWritesArmAndAcknowledge, the last two clauses. -/
theorem test_witness_control_writes (c : Chan) :
    ((machine falling falling).inReset = false ∧ ((machine falling falling).chan c).unconfigured = true ∧
      (Engine.mk ((machine falling falling).chan c).win.source ((machine falling falling).chan c).win.target
        ((machine falling falling).chan c).win.size true).meetsWindow Config.reference = false) ∧
    ((machine signalling signalling).inReset = false ∧
      ((machine signalling signalling).chan c).complete = true) := by
  cases c <;> decide

/-- UnrecognisedOffsetWritesChangeNothing: just below and just above the window, and between two registers. -/
theorem test_witness_unrecognised :
    (0x3FFFFFFF : Word) - State.reset.cfg.dmaBase ∉ recognisedOffsets ∧
    (0x40000020 : Word) - State.reset.cfg.dmaBase ∉ recognisedOffsets ∧
    (0x40000002 : Word) - State.reset.cfg.dmaBase ∉ recognisedOffsets := ⟨by decide, by decide, by decide⟩

/-- OtherLengthWritesChangeNothing: none, three and five bytes. -/
theorem test_witness_lengths :
    ([] : List Byte).length ≠ 4 ∧ ([1, 2, 3] : List Byte).length ≠ 4 ∧ ([1, 2, 3, 4, 5] : List Byte).length ≠ 4 := by
  decide

/-- RegisterWritesCommute: two registers of one channel, one register of two channels. -/
theorem test_witness_commute :
    ((Chan.ch1, Reg.source) ≠ (Chan.ch1, Reg.control) ∧ (Chan.ch1, Reg.size) ≠ (Chan.ch2, Reg.size)) ∧
    ∃ t u t' u',
      exec (wrInstr .ch1 .source 1) State.reset = .next t ∧ exec (wrInstr .ch1 .control 2) t = .next u ∧
      exec (wrInstr .ch1 .control 2) State.reset = .next t' ∧ exec (wrInstr .ch1 .source 1) t' = .next u' :=
  ⟨by decide, _, _, _, _, rfl, rfl, rfl, rfl⟩

/-- RegisterWritesCommute, the second clause. -/
theorem test_witness_idempotent :
    ∃ t u, exec (wrInstr .ch2 .size 8) State.reset = .next t ∧ exec (wrInstr .ch2 .size 8) t = .next u :=
  ⟨_, _, rfl, rfl⟩

/-- LatchLoadsTheWorkingCopies, both clauses, one with a line true and CONTROL 0, one arming. -/
theorem test_witness_latch :
    (machine falling armed).inReset = false ∧ (machine falling armed).ch1.eng.ctrl = false ∧ falling.win.control = 0 ∧
    (machine falling armed).ch2.eng.ctrl = false ∧ armed.win.control ≠ 0 ∧
    (Engine.mk armed.win.source armed.win.target armed.win.size true).meetsWindow Config.reference = false := by decide

/-- StepRelaysOneWord, both clauses, at the last word before SIZE, the last address below the window and the first one
above it. -/
theorem test_witness_step :
    let s := machine atSecond (channel 0x3FFFFFF8 0x40000020 8 1 true 4 false)
    s.inReset = false ∧
    (s.ch1.eng.ctrl = true ∧ s.ch1.offset < s.ch1.eng.size ∧ s.ch1.eng.meetsWindow s.cfg = false ∧
      touchesWindow s.cfg (s.ch1.eng.source + s.ch1.offset) = false ∧
      touchesWindow s.cfg (s.ch1.eng.target + s.ch1.offset) = false) ∧
    (s.ch2.eng.ctrl = true ∧ s.ch2.offset < s.ch2.eng.size ∧ s.ch2.eng.meetsWindow s.cfg = false ∧
      touchesWindow s.cfg (s.ch2.eng.source + s.ch2.offset) = false ∧
      touchesWindow s.cfg (s.ch2.eng.target + s.ch2.offset) = false) := by decide

/-- StepMemoryFrame: a serviced transfer, with and without another master. -/
theorem test_witness_step_memory (c : Chan) :
    let s := { machine atSecond atSecond with turns := twoTurns }
    s.mem.wf = true ∧ s.inReset = false ∧ (s.chan c).active = true ∧
    s.services 0x1004 = true ∧ s.openTurn.services 0x2004 = false ∧
    (machine atSecond atSecond).turns = [] ∧ (machine atSecond atSecond).openTurn.services 0x2004 = true ∧
    ∃ t, exec (tickInstr c .step) s = .next t := by
  cases c <;> exact ⟨by decide, rfl, by decide, by decide, by decide, rfl, by decide, _, rfl⟩

/-- SignalAssertsTheLine, both clauses: exactly at SIZE and beyond it (V-SEL7). -/
theorem test_witness_signal :
    let s := machine copied (channel 0 0 6 0 true 8 false)
    s.inReset = false ∧ (s.ch1.eng.ctrl = true ∧ s.ch1.eng.size ≤ s.ch1.offset) ∧
    (s.ch2.eng.ctrl = true ∧ s.ch2.eng.size ≤ s.ch2.offset) := by decide

/-- UnselectedRowsAreNotPerformed: in reset, and for each class of rows a channel of another logical state. -/
theorem test_witness_unselected (c : Chan) :
    State.reset.assertReset.inReset = true ∧ ((machine atSecond atSecond).chan c).unconfigured = false ∧
    ((machine copied copied).chan c).active = false ∧ ((machine armed armed).chan c).complete = false := by
  cases c <;> decide

/-- OwnWindowAccessIsRefused: the read alone and the write alone, at the window's first and last byte. -/
theorem test_witness_own_window :
    let s := machine (channel 0x3FFFFFFD 0x2000 8 1 true 0 false) (channel 0x1000 0x4000001F 8 1 true 0 false)
    s.inReset = false ∧ (s.chan .ch1).active = true ∧ (s.chan .ch2).active = true ∧
    (touchesWindow s.cfg (s.chan .ch1).readAddr = true ∧ touchesWindow s.cfg (s.chan .ch1).writeAddr = false) ∧
    (touchesWindow s.cfg (s.chan .ch2).readAddr = false ∧ touchesWindow s.cfg (s.chan .ch2).writeAddr = true) := by decide

/-- OwnWindowAccessIsRefused: the configuration alone, its next access still outside; the access alone, at an excepted
size; and the last clause. -/
theorem test_witness_own_window_configuration :
    let s := machine (channel 0x1000 0x3FFFFFFC 8 1 true 0 false) (channel 0x40000000 0x2000 0xFFFFFFFD 1 true 0 false)
    let s' := machine reachingWindow Channel.reset
    (s.ch1.active = true ∧ s.ch1.eng.meetsWindow s.cfg = true ∧
      touchesWindow s.cfg s.ch1.readAddr = false ∧ touchesWindow s.cfg s.ch1.writeAddr = false) ∧
    (s.ch2.active = true ∧ s.ch2.eng.meetsWindow s.cfg = false ∧ touchesWindow s.cfg s.ch2.readAddr = true) ∧
    (s'.inReset = false ∧ s'.ch1.unconfigured = true ∧ s'.ch1.win.control ≠ 0 ∧
      (Engine.mk s'.ch1.win.source s'.ch1.win.target s'.ch1.win.size true).meetsWindow s'.cfg = true) := by decide

/-- EveryStepKeepsConfigurationsOffTheWindow: an armed channel, one latching, and a step that answers. -/
theorem test_witness_off_window :
    (machine atSecond armed).offWindow ∧ (after (step (machine atSecond armed))).isSome = true := by
  refine ⟨fun c => ?_, by decide⟩
  cases c <;> decide

/-- UpstreamReadReturnsTheMemorysBytes and UpstreamWriteStoresItsBytes, serviced and not. -/
theorem test_witness_upstream (c : Chan) :
    let s := machine atSecond atSecond
    let s' := { s with turns := [⟨[], false⟩] }
    s.mem.wf = true ∧ s.inReset = false ∧ (s.chan c).active = true ∧ (s.chan c).eng.meetsWindow s.cfg = false ∧
    touchesWindow s.cfg ((s.chan c).eng.source + (s.chan c).offset) = false ∧
    touchesWindow s.cfg ((s.chan c).eng.target + (s.chan c).offset) = false ∧ s.turns = [] ∧
    s.services ((s.chan c).eng.source + (s.chan c).offset) = true ∧
    s.services ((s.chan c).eng.target + (s.chan c).offset) = true ∧
    s'.services ((s'.chan c).eng.target + (s'.chan c).offset) = false := by cases c <;> decide

/-- UpstreamTrafficOnlyFromActiveChannels: a step that answers and issues both channels' pairs. -/
theorem test_witness_traffic : (after (step (machine atSecond atSecond))).map (·.history.length) = some 4 := by decide

/-- TickInResetChangesNothing. -/
theorem test_witness_tick_in_reset : State.reset.assertReset.inReset = true := by decide

/-- TickIsTheTwoSelectedRows. -/
theorem test_witness_tick_rows : (machine atSecond copied).inReset = false := by decide

/-- TickCompletes, TickTransactionOrder and ChannelTwoReadsWhatChannelOneWrote (program P2). -/
theorem test_witness_tick :
    let s := machine atStart (channel 0x2000 0x3000 8 1 true 0 false)
    s.mem.wf = true ∧ s.calm ∧ s.inReset = false ∧ s.ch1.active = true ∧ s.ch2.active = true ∧
    s.stepClear .ch1 ∧ s.stepClear .ch2 ∧ s.ch2.readAddr = s.ch1.writeAddr := by
  unfold State.calm State.stepClear
  decide

/-- ChannelTransitionTable: one channel for each of the seven clauses, the fourth and fifth one word apart. -/
theorem test_witness_transitions :
    (falling.Inv ∧ falling.unconfigured = true ∧ falling.win.control = 0) ∧
    (armed.Inv ∧ armed.unconfigured = true ∧ armed.win.control ≠ 0 ∧ armed.win.size ≠ 0) ∧
    (armedEmpty.Inv ∧ armedEmpty.unconfigured = true ∧ armedEmpty.win.control ≠ 0 ∧ armedEmpty.win.size = 0) ∧
    (atStart.Inv ∧ atStart.active = true ∧ atStart.offset + 4 < atStart.eng.size) ∧
    (atSecond.Inv ∧ atSecond.active = true ∧ ¬ atSecond.offset + 4 < atSecond.eng.size) ∧
    (copied.Inv ∧ copied.complete = true ∧ copied.win.control ≠ 0) ∧
    (acknowledged.Inv ∧ acknowledged.complete = true ∧ acknowledged.win.control = 0) := by decide

/-- ChannelTransitionTable: ticks of those channels answer a next state outside reset. -/
theorem test_witness_transition_ticks :
    (machine falling armed).inReset = false ∧
    ∀ p ∈ [(falling, armed), (armedEmpty, atStart), (atSecond, copied), (acknowledged, atSecond)],
      (after (exec .tick (machine p.1 p.2))).isSome = true := by decide

/-- EveryStepKeepsTheInvariant: a state in mid-transfer, one with a line true, one in reset, each stepping on. -/
theorem test_witness_invariant :
    ((machine atSecond signalling).Inv ∧ (after (step (machine atSecond signalling))).isSome = true) ∧
    (State.reset.assertReset.Inv ∧ (after (step State.reset.assertReset)).isSome = true) := by decide

/-- EveryStepKeepsTheTraceLaw: a history with a pair, and a step that adds one. -/
theorem test_witness_trace :
    let s := { machine atSecond Channel.reset with
      history := [.upWrite .ch1 0x2000 ⟨1, 2, 3, 4⟩, .upRead .ch1 0x1000 ⟨1, 2, 3, 4⟩] }
    pairedHistory s.history = true ∧ (after (step s)).map (·.history.length) = some 4 ∧
    pairedHistory [.upWrite .ch1 0x2000 ⟨1, 2, 3, 4⟩, .upRead .ch2 0x1000 ⟨1, 2, 3, 4⟩] = false := by decide

/-- ChannelsAreIndependent: two states that agree on channel 1 and differ in channel 2 and memory. -/
theorem test_witness_independent :
    let s := machine atSecond copied
    let s' := { machine atSecond armed with mem := [] }
    s.chan .ch1 = s'.chan .ch1 ∧ s.inReset = s'.inReset ∧ s ≠ s' ∧
    (after (exec .tick s)).isSome = true ∧ (after (exec .tick s')).isSome = true := by decide

/-- WritersAreExclusive: an operation of each class that answers a next state. -/
theorem test_witness_writers :
    let s := machine atSecond copied
    (after (exec (.wrSize2 0x10) s)).isSome = true ∧ (Instr.wrSize2 0x10).format = .regwr ∧
    (after (exec (.rd 0 4) s)).isSome = true ∧ (Instr.rd 0 4).format = .regrd ∧
    (after (exec .tick s)).isSome = true ∧ Instr.tick.format = .tick ∧
    (after (exec (.uprd .ch1) s)).isSome = true ∧ (Instr.uprd .ch1).format = .up := by decide

/-- LinesRiseBySignalAndFallByLatchOrReset: a line that falls and a line that rises in one tick, and a fall by reset. -/
theorem test_witness_lines :
    let s := machine falling copied
    (s.chan .ch1).irq = true ∧ (s.chan .ch2).irq = false ∧
    (after (exec .tick s)).map (fun t => (t.ch1.irq, t.ch2.irq)) = some (false, true) ∧
    (after (exec .resetAssert s)).map (·.ch1.irq) = some false := by decide

/-- OnlyResetStopsAnActiveChannel: a tick, the channel's own row, and a write of its CONTROL. -/
theorem test_witness_active (c : Chan) :
    let s := machine atSecond atSecond
    s.inReset = false ∧ (s.chan c).active = true ∧ wrInstr c .control 0 ≠ .resetAssert ∧
    (after (exec .tick s)).isSome = true ∧ (after (exec (tickInstr c .step) s)).isSome = true ∧
    (after (exec (wrInstr c .control 0) s)).isSome = true := by cases c <;> decide

/-- ResetReleaseOnlyClearsInReset, the second clause. -/
theorem test_witness_release : State.reset.assertReset.Inv ∧ State.reset.assertReset.inReset = true := by decide

/-- CanonicalMemoriesAreDeterminedByTheirBytes. -/
theorem test_witness_canonical :
    Memory.wf bytesAt1000 = true ∧ Memory.wf [⟨0xFFFFFFFF, 1⟩] = true ∧ Memory.wf [⟨0x100000000, 1⟩] = false ∧
    Memory.wf [⟨0, 0⟩] = false ∧ (∀ a : Word, Memory.byte bytesAt1000 a = Memory.byte bytesAt1000 a) :=
  ⟨by decide, by decide, by decide, by decide, fun _ => rfl⟩

/-- ZeroSizeTransferIssuesNothing (V-ZERO). -/
theorem test_witness_zero_size (c : Chan) :
    let s := machine armedEmpty armedEmpty
    s.inReset = false ∧ (s.chan c).unconfigured = true ∧ (s.chan c).win.control ≠ 0 ∧ (s.chan c).win.size = 0 ∧
    ((after (exec .tick s)).bind fun t => after (exec .tick t)).isSome = true := by cases c <;> decide

/-- TickCountsOfOneTransfer (V-SIZE4): the SIGNAL tick. -/
theorem test_witness_tick_counts :
    let s := machine (channel 0x1000 0x2000 4 1 false 0 false) Channel.reset
    s.inReset = false ∧ (s.chan .ch1).unconfigured = true ∧ (s.chan .ch1).win.control ≠ 0 ∧
    (s.chan .ch1).win.size.toNat % 4 = 0 ∧ 1 ≤ 3 ∧
    (after (ticks 2 s)).map (·.ch1.irq) = some false ∧ (after (ticks 3 s)).map (·.ch1.irq) = some true := by decide

/-- TransferOfAnySizeRoundsUp (V-SIZE6), and at the largest SIZE that has a placement off the window. -/
theorem test_witness_any_size :
    let s := machine (channel 0x1000 0x2000 6 0x100 false 0 false) (channel 0x40000020 0x40000020 0xFFFFFFE0 1 false 0 false)
    s.inReset = false ∧ (s.ch1.unconfigured = true ∧ s.ch1.win.control ≠ 0 ∧ s.ch1.win.size ≤ 0xFFFFFFFC) ∧
    (s.ch2.unconfigured = true ∧ s.ch2.win.control ≠ 0 ∧ s.ch2.win.size ≤ 0xFFFFFFFC) ∧
    (after (ticks 3 s)).map (fun t => (t.ch1.offset, t.ch1.irq)) = some (8, false) := by decide

/-- TransferIssuesItsPairsInOrder: more ticks than words. -/
theorem test_witness_pairs :
    let s := machine atStart Channel.reset
    s.inReset = false ∧ (s.chan .ch1).active = true ∧ (s.chan .ch1).offset = 0 ∧
    (s.chan .ch1).eng.size.toNat % 4 = 0 ∧ (s.chan .ch1).win.control ≠ 0 ∧
    (after (ticks 3 s)).map (fun t => upAddrs .ch1 t.history) =
      some [(true, 0x2004), (false, 0x1004), (true, 0x2000), (false, 0x1000)] := by decide

/-- TransferCopiesTheSourceRange (program P1's ranges). -/
theorem test_witness_copy :
    let s := machine atStart Channel.reset
    Chan.ch2 ≠ Chan.ch1 ∧ s.mem.wf = true ∧ s.calm ∧ s.inReset = false ∧ (s.chan .ch1).active = true ∧
    (s.chan .ch1).offset = 0 ∧ (s.chan .ch1).eng.size.toNat % 4 = 0 ∧ (s.chan .ch2).unconfigured = true ∧
    (s.chan .ch2).win.control = 0 ∧
    (∀ i, i < 8 → inWindow s.cfg (0x1000 + BitVec.ofNat 32 i) = false ∧
      inWindow s.cfg (0x2000 + BitVec.ofNat 32 i) = false) ∧
    (∀ i, i < 8 → ∀ j, j < 8 → (0x1000 : Word) + BitVec.ofNat 32 i ≠ 0x2000 + BitVec.ofNat 32 j) := by
  unfold State.calm
  decide

/-- AcknowledgeTakesTwoTicks, with the two ticks. -/
theorem test_witness_acknowledge (c : Chan) :
    let s := machine signalling signalling
    s.inReset = false ∧ (s.chan c).complete = true ∧ (s.chan c).irq = true ∧
    (((after (exec (wrInstr c .control 0) s)).bind fun t => after (exec .tick t)).bind
      fun u => after (exec .tick u)).isSome = true := by cases c <;> decide

/-- RearmingWithoutATickLosesTheAcknowledge (program P4). -/
theorem test_witness_lost_acknowledge (c : Chan) :
    let s := machine signalling signalling
    s.inReset = false ∧ (s.chan c).complete = true ∧ (s.chan c).irq = true ∧ (1 : Word) ≠ 0 ∧
    (((after (exec (wrInstr c .control 0) s)).bind fun t => after (exec (wrInstr c .control 1) t)).bind
      fun u => after (ticks 3 u)).isSome = true := by cases c <;> decide

/-- QuiescentBlockReachesAFixedPoint: one channel falling to rest, one at rest in completion. -/
theorem test_witness_quiescent :
    (machine acknowledged signalling).inReset = false ∧ (machine acknowledged signalling).quiescent := by
  refine ⟨by decide, fun c => ?_⟩
  unfold Channel.waiting
  cases c <;> decide

end Sys2Proof.Tests
end

section
/-! PROOFS. What one operation does to the registers, said once: an operation's rows fall into nine families, and what a
channel's elements become depends on that channel, on `IN_RESET` and on the operation alone. -/

namespace Sys2Proof.Machine

/-! ### The families of operations -/

/-- The eight register writes and the six tick rows are two families (30_encoding.md R82, R87); every other row of the
opcode table is its own. To prove something of every operation, prove it of each family. -/
theorem instr_by_family {P : Instr → Prop}
    (regWrite : ∀ c r v, P (wrInstr c r v)) (wrNop : ∀ off data, P (.wrNop off data))
    (rd : ∀ addr len, P (.rd addr len)) (tick : P .tick) (row : ∀ c op, P (tickInstr c op))
    (resetAssert : P .resetAssert) (resetRelease : P .resetRelease)
    (uprd : ∀ c, P (.uprd c)) (upwr : ∀ c d, P (.upwr c d)) (i : Instr) : P i := by
  cases i with
  | wrSource1 v => exact regWrite .ch1 .source v
  | wrTarget1 v => exact regWrite .ch1 .target v
  | wrSize1 v => exact regWrite .ch1 .size v
  | wrControl1 v => exact regWrite .ch1 .control v
  | wrSource2 v => exact regWrite .ch2 .source v
  | wrTarget2 v => exact regWrite .ch2 .target v
  | wrSize2 v => exact regWrite .ch2 .size v
  | wrControl2 v => exact regWrite .ch2 .control v
  | wrNop off data => exact wrNop off data
  | rd addr len => exact rd addr len
  | tick => exact tick
  | latch1 => exact row .ch1 .latch
  | step1 => exact row .ch1 .step
  | signal1 => exact row .ch1 .signal
  | latch2 => exact row .ch2 .latch
  | step2 => exact row .ch2 .step
  | signal2 => exact row .ch2 .signal
  | resetAssert => exact resetAssert
  | resetRelease => exact resetRelease
  | uprd c => exact uprd c
  | upwr c d => exact upwr c d

@[simp] theorem format_wrInstr (c : Chan) (r : Reg) (v : Word) : (wrInstr c r v).format = .regwr := by
  cases c <;> cases r <;> rfl

@[simp] theorem format_tickInstr (c : Chan) (op : TickOp) : (tickInstr c op).format = .tick := by
  cases c <;> cases op <;> rfl

@[simp] theorem exec_wrInstr (c : Chan) (r : Reg) (v : Word) (s : State) :
    exec (wrInstr c r v) s = .next (s.regWrite c r v) := by
  cases c <;> cases r <;> rfl

@[simp] theorem exec_tickInstr (c : Chan) (op : TickOp) (s : State) : exec (tickInstr c op) s = rowOp c op s := by
  cases c <;> cases op <;> rfl

/-! ### What a tick, a tick row and an upstream row can do -/

/-- A `TICK` does nothing in reset and evaluates channel 1, then channel 2, outside it (41_transfer_engine.md R140,
R157). -/
theorem execTick_eq_next {s t : State} :
    exec .tick s = .next t ↔
      (s.inReset = true ∧ t = s) ∨
      (s.inReset = false ∧ ∃ u, evalChannel .ch1 s = .next u ∧ evalChannel .ch2 u = .next t) := by
  show execTick s = .next t ↔ _
  unfold execTick
  cases s.inReset
  · simp [andThen_eq_next]
  · simp [@eq_comm _ s t]

/-- A tick row taken by itself is the channel's evaluation where the state selects it outside reset, and nothing
elsewhere (log 5). -/
theorem rowOp_eq_next {c : Chan} {op : TickOp} {s t : State} :
    rowOp c op s = .next t ↔
      (s.inReset = false ∧ s.selected c = op ∧ evalChannel c s = .next t) ∨
      (¬ (s.inReset = false ∧ s.selected c = op) ∧ t = s) := by
  unfold rowOp evalChannel
  cases s.inReset
  · by_cases hop : s.selected c = op
    · subst hop
      simp
    · simp [hop, @eq_comm _ s t]
  · simp [@eq_comm _ s t]

/-- An upstream row taken by itself is performed for an Active channel outside reset, and is nothing elsewhere
(43_bus_sequencer.md R197). -/
theorem upRow_eq_next {c : Chan} {o : State → Host.Outcome State Fault Refusal} {s t : State} :
    upRow c o s = .next t ↔
      (s.inReset = false ∧ (s.chan c).active = true ∧ o s = .next t) ∨
      (¬ (s.inReset = false ∧ (s.chan c).active = true) ∧ t = s) := by
  unfold upRow
  cases s.inReset
  · cases (s.chan c).active
    · simp [@eq_comm _ s t]
    · simp
  · simp [@eq_comm _ s t]

/-- An `UPRD` that answers has performed its read or has done nothing. -/
theorem exec_uprd_cases {c : Chan} {s t : State} (h : exec (.uprd c) s = .next t) :
    t = s.afterRead c (s.chan c).readAddr ∨ t = s := by
  obtain ⟨-, -, hread⟩ | ⟨-, rfl⟩ := upRow_eq_next.1 h
  · exact .inl (upRead_eq_next.1 hread).2
  · exact .inr rfl

/-- An `UPWR` that answers has performed its write or has done nothing. -/
theorem exec_upwr_cases {c : Chan} {d : Quad} {s t : State} (h : exec (.upwr c d) s = .next t) :
    t = s.afterWrite c (s.chan c).writeAddr d ∨ t = s := by
  obtain ⟨-, -, hwrite⟩ | ⟨-, rfl⟩ := upRow_eq_next.1 h
  · exact .inl (upWrite_eq_next.1 hwrite).2
  · exact .inr rfl

/-! ### What an operation does to one channel and to `IN_RESET` -/

/-- The register of channel `c` that an operation writes, with the value. -/
def regWritten (c : Chan) (i : Instr) : Option (Reg × Word) :=
  match c, i with
  | .ch1, .wrSource1 v | .ch2, .wrSource2 v => some (.source, v)
  | .ch1, .wrTarget1 v | .ch2, .wrTarget2 v => some (.target, v)
  | .ch1, .wrSize1 v | .ch2, .wrSize2 v => some (.size, v)
  | .ch1, .wrControl1 v | .ch2, .wrControl2 v => some (.control, v)
  | _, _ => none

/-- Channel `c` after operation `i`, from the channel's own elements and `IN_RESET`: reset zeroes it; in reset nothing
else acts; a tick, or the channel's row that its state selects, evaluates it; a write of one of its registers is taken
unless it is Active; nothing else touches it (10_state.md R34, R35). -/
def Channel.afterInstr (ch : Channel) (c : Chan) (inReset : Bool) (i : Instr) : Channel :=
  if i = .resetAssert then Channel.reset
  else if inReset = true then ch
  else if i = .tick ∨ i = tickInstr c (decodeSel ch.sel) then ch.evaluated
  else if ch.active = true then ch
  else match regWritten c i with
    | some (r, v) => ch.setReg r v
    | none => ch

/-- `IN_RESET` after an operation: only the two reset events change it (70_reset_and_hazards.md R240, R242). -/
def inResetAfter (inReset : Bool) : Instr → Bool
  | .resetAssert => true
  | .resetRelease => false
  | _ => inReset

/-- In reset after an operation: it was the assertion, or the block was in reset before. -/
theorem inResetAfter_eq_true {b : Bool} {i : Instr} (h : inResetAfter b i = true) : i = .resetAssert ∨ b = true := by
  unfold inResetAfter at h
  split at h
  · exact .inl rfl
  · cases h
  · exact .inr h

@[simp] theorem inResetAfter_wrInstr (b : Bool) (c : Chan) (r : Reg) (v : Word) :
    inResetAfter b (wrInstr c r v) = b := by
  cases c <;> cases r <;> rfl

@[simp] theorem inResetAfter_tickInstr (b : Bool) (c : Chan) (op : TickOp) :
    inResetAfter b (tickInstr c op) = b := by
  cases c <;> cases op <;> rfl

section
variable (ch : Channel) (c c' : Chan) (b : Bool) (d : Quad)

/-- A register write reaches the one channel it names, outside reset and while that channel is not Active
(40_register_window.md R110, R111, R122). -/
theorem afterInstr_wrInstr (r : Reg) (v : Word) :
    ch.afterInstr c b (wrInstr c' r v) =
      if c = c' ∧ b = false ∧ ch.active = false then ch.setReg r v else ch := by
  have hreset : wrInstr c' r v ≠ .resetAssert := by cases c' <;> cases r <;> nofun
  have htick : wrInstr c' r v ≠ .tick := by cases c' <;> cases r <;> nofun
  have hrow : ∀ op, wrInstr c' r v ≠ tickInstr c op := fun op h => by simpa using congrArg Instr.format h
  have hreg : regWritten c (wrInstr c' r v) = if c = c' then some (r, v) else none := by
    cases c <;> cases c' <;> cases r <;> rfl
  simp only [Channel.afterInstr, hreset, htick, hrow, hreg, if_false, or_self]
  by_cases hc : c = c'
  · cases b <;> cases ch.active <;> simp [hc]
  · simp [hc]

/-- A tick row reaches the one channel it names, outside reset and where that channel's state selects it
(30_encoding.md R87). -/
theorem afterInstr_tickInstr (op : TickOp) :
    ch.afterInstr c b (tickInstr c' op) =
      if c = c' ∧ b = false ∧ decodeSel ch.sel = op then ch.evaluated else ch := by
  have hrest : tickInstr c' op ≠ .resetAssert ∧ tickInstr c' op ≠ .tick := by
    cases c' <;> cases op <;> exact ⟨nofun, nofun⟩
  have hrow : ∀ op', tickInstr c' op = tickInstr c op' ↔ c = c' ∧ op' = op := by
    intro op'
    cases c <;> cases c' <;> cases op <;> cases op' <;> decide
  have hreg : regWritten c (tickInstr c' op) = none := by
    cases c <;> cases c' <;> cases op <;> rfl
  unfold Channel.afterInstr
  rw [hreg]
  cases b <;> simp [hrow, hrest]

@[simp] theorem afterInstr_tick :
    ch.afterInstr c b .tick = if b = true then ch else ch.evaluated := by
  simp [Channel.afterInstr]

@[simp] theorem afterInstr_resetAssert : ch.afterInstr c b .resetAssert = Channel.reset := rfl

/-- The operations that are neither a register write, nor a tick or its row, nor the assertion of reset leave a channel
alone. -/
theorem afterInstr_other {i : Instr} (ha : i ≠ .resetAssert) (ht : i.format ≠ .tick)
    (hw : regWritten c i = none) : ch.afterInstr c b i = ch := by
  have hrow : ∀ op, i ≠ tickInstr c op := by
    rintro op rfl
    exact ht (format_tickInstr c op)
  have htick : i ≠ .tick := by
    rintro rfl
    exact ht rfl
  simp [Channel.afterInstr, ha, hrow, htick, hw]

@[simp] theorem afterInstr_wrNop (off : Word) (data : List Byte) : ch.afterInstr c b (.wrNop off data) = ch :=
  afterInstr_other ch c b nofun nofun (by cases c <;> rfl)

@[simp] theorem afterInstr_rd (addr : Word) (len : Nat) : ch.afterInstr c b (.rd addr len) = ch :=
  afterInstr_other ch c b nofun nofun (by cases c <;> rfl)

@[simp] theorem afterInstr_resetRelease : ch.afterInstr c b .resetRelease = ch :=
  afterInstr_other ch c b nofun nofun (by cases c <;> rfl)

@[simp] theorem afterInstr_uprd : ch.afterInstr c b (.uprd c') = ch :=
  afterInstr_other ch c b nofun nofun (by cases c <;> rfl)

@[simp] theorem afterInstr_upwr : ch.afterInstr c b (.upwr c' d) = ch :=
  afterInstr_other ch c b nofun nofun (by cases c <;> rfl)

/-- In reset only the assertion of reset, which zeroes the channel, is not without effect on it. -/
theorem afterInstr_in_reset (i : Instr) :
    ch.afterInstr c true i = if i = .resetAssert then Channel.reset else ch := by
  simp [Channel.afterInstr]

end

/-! ### The operations of the model have these effects -/

/-- What a register write does to the registers, and what it leaves alone. -/
theorem regWrite_chan (s : State) (c c' : Chan) (r : Reg) (v : Word) :
    (s.regWrite c' r v).chan c =
      if c = c' ∧ s.inReset = false ∧ (s.chan c).active = false then (s.chan c).setReg r v else s.chan c := by
  have hacc : s.accepts c' = true ↔ s.inReset = false ∧ (s.chan c').active = false := by
    simp [State.accepts]
  by_cases hc : c = c'
  · subst hc
    obtain ⟨ha, h⟩ | ⟨ha, h⟩ := regWrite_cases s c r v
    · simp [h, hacc.1 ha]
    · have hna : ¬ (s.inReset = false ∧ (s.chan c).active = false) := by simp [← hacc, ha]
      simp [h, hna]
  · obtain ⟨-, h⟩ | ⟨-, h⟩ := regWrite_cases s c' r v
    · simp [h, setChan_chan_other _ _ hc, hc]
    · simp [h, hc]

@[simp] theorem regWrite_inReset (s : State) (c : Chan) (r : Reg) (v : Word) :
    (s.regWrite c r v).inReset = s.inReset := by
  obtain ⟨-, h⟩ | ⟨-, h⟩ := regWrite_cases s c r v <;> simp [h]

@[simp] theorem regWrite_cfg (s : State) (c : Chan) (r : Reg) (v : Word) : (s.regWrite c r v).cfg = s.cfg := by
  obtain ⟨-, h⟩ | ⟨-, h⟩ := regWrite_cases s c r v <;> simp [h]

@[simp] theorem regWrite_mem (s : State) (c : Chan) (r : Reg) (v : Word) : (s.regWrite c r v).mem = s.mem := by
  obtain ⟨-, h⟩ | ⟨-, h⟩ := regWrite_cases s c r v <;> simp [h]

/-- A TICK evaluates both channels outside reset, each from its own elements: channel 2's evaluation finds the channel
that channel 1's left. -/
theorem execTick_regs {s t : State} (h : exec .tick s = .next t) :
    (∀ c, t.chan c = if s.inReset = true then s.chan c else (s.chan c).evaluated) ∧
    t.inReset = s.inReset ∧ t.cfg = s.cfg := by
  obtain ⟨hr, rfl⟩ | ⟨hr, u, h1, h2⟩ := execTick_eq_next.1 h
  · simp [hr]
  · obtain ⟨hu1, huo, hur, huc, -⟩ := evalChannel_regs h1
    obtain ⟨ht2, hto, htr, htc, -⟩ := evalChannel_regs h2
    refine ⟨fun c => ?_, htr.trans hur, htc.trans huc⟩
    cases c
    · simp [hr, hto .ch1 nofun, hu1]
    · simp [hr, ht2, huo .ch2 nofun]

/-- A tick row taken by itself evaluates its channel where the state selects it outside reset, and does nothing
elsewhere. -/
theorem rowOp_regs {c' : Chan} {op : TickOp} {s t : State} (h : rowOp c' op s = .next t) :
    (∀ c, t.chan c =
      if c = c' ∧ s.inReset = false ∧ decodeSel (s.chan c).sel = op then (s.chan c).evaluated else s.chan c) ∧
    t.inReset = s.inReset ∧ t.cfg = s.cfg := by
  obtain ⟨hr, hsel, h1⟩ | ⟨hn, rfl⟩ := rowOp_eq_next.1 h
  · obtain ⟨hself, hother, htr, htc, -⟩ := evalChannel_regs h1
    refine ⟨fun c => ?_, htr, htc⟩
    by_cases hc : c = c'
    · subst hc
      have hsel' : decodeSel (s.chan c).sel = op := hsel
      simp [hself, hr, hsel']
    · simp [hother c hc, hc]
  · refine ⟨fun c => (if_neg ?_).symm, rfl, rfl⟩
    rintro ⟨rfl, hr, hsel⟩
    exact hn ⟨hr, hsel⟩

/-- Every operation that answers does to each channel what `Channel.afterInstr` says, to `IN_RESET` what `inResetAfter`
says, and nothing to the parameters. -/
theorem exec_regs {i : Instr} {s t : State} (h : exec i s = .next t) :
    (∀ c, t.chan c = (s.chan c).afterInstr c s.inReset i) ∧
    t.inReset = inResetAfter s.inReset i ∧ t.cfg = s.cfg := by
  cases i using instr_by_family with
  | regWrite c' r v =>
    rw [exec_wrInstr] at h
    cases h
    exact ⟨fun c => by rw [regWrite_chan, afterInstr_wrInstr], by simp, by simp⟩
  | wrNop off data => cases h; exact ⟨fun c => by simp, rfl, rfl⟩
  | rd addr len => cases h; exact ⟨fun c => by cases c <;> simp, rfl, rfl⟩
  | tick =>
    obtain ⟨hchan, hr, hc⟩ := execTick_regs h
    exact ⟨fun c => by rw [hchan, afterInstr_tick], hr, hc⟩
  | row c' op =>
    rw [exec_tickInstr] at h
    obtain ⟨hchan, hr, hc⟩ := rowOp_regs h
    exact ⟨fun c => by rw [hchan, afterInstr_tickInstr], by simp [hr], hc⟩
  | resetAssert => cases h; exact ⟨fun c => by simp, rfl, rfl⟩
  | resetRelease => cases h; exact ⟨fun c => by simp, rfl, rfl⟩
  | uprd c' => obtain rfl | rfl := exec_uprd_cases h <;> exact ⟨fun c => by simp, rfl, rfl⟩
  | upwr c' d => obtain rfl | rfl := exec_upwr_cases h <;> exact ⟨fun c => by simp, rfl, rfl⟩

end Sys2Proof.Machine
end

section
/-! PROOFS. The invariant (10_state.md R36 to R38, 70_reset_and_hazards.md R241): the state after reset meets it and
every step keeps it; and the claims about who writes which register (10_state.md R33 to R35). -/

namespace Sys2Proof.Machine

/-! ### The state after reset -/

theorem reset_inv : Channel.reset.Inv := by decide

/-- The evaluation of a channel in its reset state is a LATCH of zeros, which changes nothing. -/
theorem evalChannel_of_reset {s : State} {c : Chan} (h : s.chan c = Channel.reset) :
    evalChannel c s = .next s := by
  have hidle : (s.chan c).active = false := by rw [h]; rfl
  have harms : (s.chan c).armsOwnWindow s.cfg = false := armsOwnWindow_of_control_zero (by rw [h]; rfl)
  have hself : s.setChanIrq c (s.chan c).evaluated = s := by
    have he : (s.chan c).evaluated = s.chan c := by rw [h]; rfl
    rw [he]
    cases c <;> simp [State.setChanIrq, irqEvents]
  exact (evalChannel_idle_eq_next hidle).2 ⟨fun _ => harms, hself.symm⟩

/-- A tick leaves a block whose channels are in their reset state as it is (70_reset_and_hazards.md R242). -/
theorem tick_of_reset_channels {s : State} (h1 : s.ch1 = Channel.reset) (h2 : s.ch2 = Channel.reset) :
    exec .tick s = .next s := by
  rw [execTick_eq_next]
  cases hr : s.inReset
  · exact .inr ⟨rfl, s, evalChannel_of_reset h1, evalChannel_of_reset h2⟩
  · exact .inl ⟨rfl, rfl⟩

/-- Settles O34: a reset channel is all zero, and its evaluation changes nothing. -/
theorem resetStateIsZeroAndIdle : Obligations.ResetStateIsZeroAndIdle :=
  ⟨rfl, rfl, rfl, tick_of_reset_channels rfl rfl⟩

/-- Settles O36: each clause holds of the reset channels, the empty memory and the reference base. -/
theorem resetMeetsTheInvariant : Obligations.ResetMeetsTheInvariant :=
  ⟨⟨reset_inv, reset_inv, fun _ => ⟨rfl, rfl⟩, rfl, by decide⟩, rfl⟩

/-- Settles O52: reset arms no channel. -/
theorem resetConfigurationsAreOffTheWindow : Obligations.ResetConfigurationsAreOffTheWindow := by
  intro cfg c harmed
  have hreset : ({ State.reset with cfg := cfg } : State).chan c = Channel.reset := by cases c <;> rfl
  rw [hreset] at harmed
  cases harmed

/-! ### Each channel keeps its invariant -/

/-- The invariant does not look at the window registers. -/
theorem setReg_inv {ch : Channel} (h : ch.Inv) (r : Reg) (v : Word) : (ch.setReg r v).Inv := by
  simpa [Channel.Inv] using h

/-- LATCH zeroes the offset and makes the line false. -/
theorem latched_inv (ch : Channel) : ch.latched.Inv :=
  ⟨rfl, fun _ => BitVec.le_def.2 (Nat.zero_le _), nofun⟩

/-- STEP adds 4 to an offset below SIZE: it stays a multiple of 4 even where it wraps, it cannot pass a SIZE that is a
multiple of 4, and the line is false, since a true one stands only at the end of a transfer. -/
theorem advanced_inv {ch : Channel} (h : ch.Inv) (ha : ch.active = true) : ch.advanced.Inv := by
  have hbelow : ch.offset.toNat < ch.eng.size.toNat := by
    rw [← below_iff]
    simpa using (Bool.and_eq_true_iff.1 ha).2
  obtain ⟨hmul, -, hirq⟩ := h
  have hsize := ch.eng.size.isLt
  have hnext : (ch.offset + 4).toNat = (ch.offset.toNat + 4) % 2 ^ 32 := BitVec.toNat_add ch.offset 4
  simp only [Channel.Inv, advanced_offset, advanced_eng, advanced_irq, BitVec.le_def, hnext] at hirq ⊢
  refine ⟨by omega, fun hs => by omega, fun hi => ?_⟩
  have := hirq hi
  omega

/-- SIGNAL leaves offset and SIZE, and finds the offset at or past SIZE. -/
theorem signalled_inv {ch : Channel} (h : ch.Inv) (hc : ch.eng.size ≤ ch.offset) : ch.signalled.Inv := by
  obtain ⟨hmul, hle, -⟩ := h
  exact ⟨hmul, hle, fun _ => hc⟩

/-- An evaluation is a LATCH, a STEP of an Active channel, or a SIGNAL of a Complete one. -/
theorem evaluated_cases (ch : Channel) :
    ch.evaluated = ch.latched ∨
    (ch.active = true ∧ ch.evaluated = ch.advanced) ∨
    (ch.complete = true ∧ ch.evaluated = ch.signalled) := by
  unfold Channel.evaluated Channel.unconfigured Channel.active Channel.complete
  cases ch.eng.ctrl
  · simp
  · cases ch.below <;> simp

theorem evaluated_inv {ch : Channel} (h : ch.Inv) : ch.evaluated.Inv := by
  obtain he | ⟨ha, he⟩ | ⟨hc, he⟩ := evaluated_cases ch
  · rw [he]
    exact latched_inv ch
  · rw [he]
    exact advanced_inv h ha
  · rw [he]
    refine signalled_inv h ?_
    have hbelow : ¬ ch.offset.toNat < ch.eng.size.toNat := by
      rw [← below_iff]
      simpa using (Bool.and_eq_true_iff.1 hc).2
    exact BitVec.le_def.2 (by omega)

/-- Every operation keeps each channel's part of the invariant. -/
theorem afterInstr_inv {ch : Channel} (h : ch.Inv) (c : Chan) (b : Bool) (i : Instr) : (ch.afterInstr c b i).Inv := by
  unfold Channel.afterInstr
  split
  · exact reset_inv
  · split
    · exact h
    · split
      · exact evaluated_inv h
      · split
        · exact h
        · split
          · exact setReg_inv h _ _
          · exact h

/-! ### Memory stays canonical -/

theorem afterRead_mem_wf {s : State} (h : s.mem.wf = true) (c : Chan) (a : Word) : (s.afterRead c a).mem.wf = true :=
  applyOthers_wf h

theorem afterWrite_mem_wf {s : State} (h : s.mem.wf = true) (c : Chan) (a : Word) (d : Quad) :
    (s.afterWrite c a d).mem.wf = true := by
  rw [afterWrite_mem]
  split
  · exact writeQuad_wf (applyOthers_wf h)
  · exact applyOthers_wf h

/-- Of the three operations an evaluation chooses from, only STEP touches memory, with its read and its write. -/
theorem evalChannel_mem_wf {c : Chan} {s t : State} (hm : s.mem.wf = true) (h : evalChannel c s = .next t) :
    t.mem.wf = true := by
  cases ha : (s.chan c).active
  · obtain ⟨-, rfl⟩ := (evalChannel_idle_eq_next ha).1 h
    simpa using hm
  · rw [evalChannel_active ha] at h
    obtain ⟨-, -, rfl⟩ := stepOp_eq_next.1 h
    rw [setChan_mem]
    exact afterWrite_mem_wf (afterRead_mem_wf hm _ _) _ _ _

/-- Every operation keeps memory's canonical form. -/
theorem exec_mem_wf {i : Instr} {s t : State} (hm : s.mem.wf = true) (h : exec i s = .next t) : t.mem.wf = true := by
  cases i using instr_by_family with
  | regWrite c r v =>
    rw [exec_wrInstr] at h
    cases h
    rwa [regWrite_mem]
  | wrNop off data => cases h; exact hm
  | rd addr len => cases h; exact hm
  | tick =>
    obtain ⟨-, rfl⟩ | ⟨-, u, h1, h2⟩ := execTick_eq_next.1 h
    · exact hm
    · exact evalChannel_mem_wf (evalChannel_mem_wf hm h1) h2
  | row c op =>
    rw [exec_tickInstr] at h
    obtain ⟨-, -, h1⟩ | ⟨-, rfl⟩ := rowOp_eq_next.1 h
    · exact evalChannel_mem_wf hm h1
    · exact hm
  | resetAssert => cases h; exact hm
  | resetRelease => cases h; exact hm
  | uprd c =>
    obtain rfl | rfl := exec_uprd_cases h
    · exact afterRead_mem_wf hm _ _
    · exact hm
  | upwr c d =>
    obtain rfl | rfl := exec_upwr_cases h
    · exact afterWrite_mem_wf hm _ _ _
    · exact hm

/-! ### Every step keeps the invariant -/

/-- In reset a channel is in its reset state: the assertion of reset puts it there, and nothing moves it before the
release (70_reset_and_hazards.md R241). -/
theorem afterInstr_eq_reset {ch : Channel} {b : Bool} {i : Instr} (h : b = true → ch = Channel.reset) (c : Chan)
    (hr : inResetAfter b i = true) : ch.afterInstr c b i = Channel.reset := by
  obtain rfl | rfl := inResetAfter_eq_true hr
  · rfl
  · rw [afterInstr_in_reset, h rfl, ite_self]

/-- Every operation keeps the invariant. -/
theorem exec_inv {i : Instr} {s t : State} (hs : s.Inv) (h : exec i s = .next t) : t.Inv := by
  obtain ⟨h1, h2, hreset, hmem, hwf⟩ := hs
  obtain ⟨hchan, hr, hcfg⟩ := exec_regs h
  have ht1 : t.ch1 = s.ch1.afterInstr .ch1 s.inReset i := hchan .ch1
  have ht2 : t.ch2 = s.ch2.afterInstr .ch2 s.inReset i := hchan .ch2
  refine ⟨ht1 ▸ afterInstr_inv h1 _ _ _, ht2 ▸ afterInstr_inv h2 _ _ _, fun htr => ?_, exec_mem_wf hmem h, ?_⟩
  · rw [hr] at htr
    exact ⟨ht1.trans (afterInstr_eq_reset (fun hb => (hreset hb).1) _ htr),
      ht2.trans (afterInstr_eq_reset (fun hb => (hreset hb).2) _ htr)⟩
  · rwa [hcfg]

/-- Settles O35: a step performs one operation on the state whose next stimulus has been taken, and taking it touches
nothing the invariant speaks of. -/
theorem everyStepKeepsTheInvariant : Obligations.EveryStepKeepsTheInvariant := by
  intro s t hs h
  have htake : s.takeInput.Inv := hs
  exact exec_inv htake h

/-! ### Independence and exclusive writers -/

/-- Settles O38: a channel after an operation is a function of that channel, of `IN_RESET` and of the operation. -/
theorem channelsAreIndependent : Obligations.ChannelsAreIndependent := by
  intro i c s s' t t' hchan hreset h h'
  rw [(exec_regs h).1 c, (exec_regs h').1 c, hchan, hreset]

/-- An evaluation writes no window register. -/
@[simp] theorem evaluated_win (ch : Channel) : ch.evaluated.win = ch.win := by
  obtain he | ⟨-, he⟩ | ⟨-, he⟩ := evaluated_cases ch
  · rw [he, latched_win]
  · rw [he, advanced_win]
  · rw [he, signalled_win]

/-- Ticks, their rows and the upstream operations write no window register. -/
theorem afterInstr_win {i : Instr} (hf : i.format = .tick ∨ i.format = .up) (ch : Channel) (c : Chan) (b : Bool) :
    (ch.afterInstr c b i).win = ch.win := by
  cases i using instr_by_family with
  | regWrite c' r v => simp at hf
  | wrNop off data => simp
  | rd addr len => simp
  | tick =>
    rw [afterInstr_tick]
    split <;> simp
  | row c' op =>
    rw [afterInstr_tickInstr]
    split <;> simp
  | resetAssert => simp [Instr.format] at hf
  | resetRelease => simp
  | uprd c' => simp
  | upwr c' d => simp

/-- A downstream write leaves both channels as they are or sets one window register of one channel. -/
theorem exec_regwr_cases {i : Instr} {s t : State} (hf : i.format = .regwr) (h : exec i s = .next t) :
    (∀ c, t.chan c = s.chan c) ∨
    ∃ c r v, t.chan c = (s.chan c).setReg r v ∧ ∀ c', c' ≠ c → t.chan c' = s.chan c' := by
  obtain ⟨hchan, -, -⟩ := exec_regs h
  cases i using instr_by_family with
  | regWrite c r v =>
    by_cases hacc : s.inReset = false ∧ (s.chan c).active = false
    · refine .inr ⟨c, r, v, ?_, fun c' hc => ?_⟩
      · simp [hchan, afterInstr_wrInstr, hacc]
      · simp [hchan, afterInstr_wrInstr, hc]
    · refine .inl fun c' => ?_
      rw [hchan, afterInstr_wrInstr, if_neg]
      rintro ⟨rfl, hacc'⟩
      exact hacc hacc'
  | wrNop off data => exact .inl fun c => by rw [hchan, afterInstr_wrNop]
  | row c op => simp at hf
  | rd | tick | resetAssert | resetRelease | uprd | upwr => cases hf

/-- Settles O39: the class of an operation says which elements of a channel it can reach. -/
theorem writersAreExclusive : Obligations.WritersAreExclusive := by
  intro i s t h
  obtain ⟨hchan, -, -⟩ := exec_regs h
  refine ⟨fun hf => ?_, fun hf => ?_, fun hf => ?_, fun hf c => ?_⟩
  · exact (exec_regwr_cases hf h).imp_left fun hall => ⟨hall .ch1, hall .ch2⟩
  · cases i using instr_by_family with
    | rd addr len => exact ⟨by simpa using hchan .ch1, by simpa using hchan .ch2⟩
    | regWrite c r v => simp at hf
    | row c op => simp at hf
    | wrNop | tick | resetAssert | resetRelease | uprd | upwr => cases hf
  · have hwin : ∀ c, (t.chan c).win = (s.chan c).win := fun c => by rw [hchan, afterInstr_win hf]
    exact ⟨hwin .ch1, hwin .ch2⟩
  · obtain hall | ⟨c', r, v, hset, hother⟩ := exec_regwr_cases hf h
    · simp [hall]
    · by_cases hc : c = c'
      · subst hc
        simp [hset]
      · simp [hother c hc]

end Sys2Proof.Machine
end

section
/-! PROOFS. The block's own window (20_memory.md R68): which configurations are refused, which evaluations are, and that
no step leaves a refused configuration armed. -/

namespace Sys2Proof.Machine

/-! ### Which configurations are refused -/

/-- The length of a transfer that ends fits the address space (92_eei_decisions.md D19). -/
theorem length_le_of_size_le {e : Engine} (h : e.size ≤ 0xFFFFFFFC) : e.length ≤ 2 ^ 32 := by
  have hsize : e.size.toNat ≤ 0xFFFFFFFC := h
  unfold Engine.length
  omega

theorem inWindow_iff {cfg : Config} {a : Word} : inWindow cfg a = true ↔ (a - cfg.dmaBase).toNat < 32 := by
  simp [inWindow, BitVec.ult]

/-- Settles O50: each of the two range tests finds an address of its range in the window, and the ranges are as long as
SIZE rounded up. -/
theorem refusedConfigurations : Obligations.RefusedConfigurations := by
  intro cfg e
  simp only [Engine.meetsWindow, Bool.and_eq_true, Bool.or_eq_true, decide_eq_true_eq]
  refine and_congr_right fun hsize => ?_
  have hlen := length_le_of_size_le hsize
  have hwords : 4 * ((e.size.toNat + 3) / 4) = e.length := Nat.mul_comm ..
  simp only [rangeMeetsWindow_iff hlen, inWindow_iff, hwords, and_or_left, exists_or]

/-! ### Which evaluations are refused -/

/-- Whether a channel's evaluation keeps off the window depends on that channel and on the parameters alone. -/
theorem stepClear_congr {s s' : State} {c : Chan} (hchan : s'.chan c = s.chan c) (hcfg : s'.cfg = s.cfg) :
    s'.stepClear c ↔ s.stepClear c := by
  unfold State.stepClear
  rw [hchan, hcfg]

/-- An evaluation answers a state exactly where it keeps off the window. -/
theorem evalChannel_answers_iff {c : Chan} {s : State} : (∃ t, evalChannel c s = .next t) ↔ s.stepClear c := by
  unfold State.stepClear
  cases ha : (s.chan c).active
  · simp [evalChannel_idle_eq_next ha, armsOwnWindow_eq_false]
  · have hu : ¬ (s.chan c).unconfigured = true := Bool.eq_false_iff.1 (not_unconfigured_of_active ha)
    constructor
    · rintro ⟨t, ht⟩
      rw [evalChannel_active ha, stepOp_eq_next] at ht
      obtain ⟨hread, hwrite, -⟩ := ht
      obtain ⟨hmeets, hr⟩ := refuses_eq_false.1 hread
      obtain ⟨-, hw⟩ := refuses_eq_false.1 hwrite
      exact ⟨fun _ => ⟨hmeets, hr, hw⟩, fun h => absurd h hu⟩
    · rintro ⟨hactive, -⟩
      obtain ⟨hmeets, hr, hw⟩ := hactive rfl
      exact ⟨_, (evalChannel_active ha).trans
        (stepOp_eq_next.2 ⟨refuses_eq_false.2 ⟨hmeets, hr⟩, refuses_eq_false.2 ⟨hmeets, hw⟩, rfl⟩)⟩

/-- An evaluation that does not keep off the window is refused. -/
theorem evalChannel_refused {c : Chan} {s : State} (h : ¬ s.stepClear c) : evalChannel c s = .refused .ownWindow := by
  cases he : evalChannel c s with
  | next t => exact absurd (evalChannel_answers_iff.1 ⟨t, he⟩) h
  | fault r => cases r
  | refused r =>
    cases ha : (s.chan c).active
    · rw [evalChannel_idle ha] at he
      split at he <;> cases he
      rfl
    · rw [evalChannel_active ha, stepOp_eq_refused] at he
      rw [he.1]

/-- Outside reset a tick is channel 1's evaluation, then channel 2's (41_transfer_engine.md R140). -/
theorem exec_tick_of_not_inReset {s : State} (hr : s.inReset = false) :
    exec .tick s = andThen (evalChannel .ch1 s) (evalChannel .ch2) := by
  show execTick s = _
  simp [execTick, hr]

/-- A tick is refused where either channel's evaluation does not keep off the window: channel 1's leaves channel 2 as it
finds it. -/
theorem exec_tick_refused {s : State} {c : Chan} (hr : s.inReset = false) (h : ¬ s.stepClear c) :
    exec .tick s = .refused .ownWindow := by
  rw [exec_tick_of_not_inReset hr, andThen_eq_refused]
  by_cases h1 : s.stepClear .ch1
  · obtain ⟨u, hu⟩ := evalChannel_answers_iff.2 h1
    obtain ⟨-, hother, -, hcfg, -⟩ := evalChannel_regs hu
    have h2 : ¬ s.stepClear .ch2 := by
      cases c
      · exact absurd h1 h
      · exact h
    refine .inr ⟨u, hu, evalChannel_refused ?_⟩
    rwa [stepClear_congr (hother .ch2 nofun) hcfg]
  · exact .inl (evalChannel_refused h1)

/-- Outside reset the row that a channel's state selects is the channel's evaluation. -/
theorem exec_selected_row {s : State} {c : Chan} {op : TickOp} (hr : s.inReset = false) (hop : s.selected c = op) :
    exec (tickInstr c op) s = evalChannel c s := by
  simp [rowOp, evalChannel, hr, hop]

/-- An Active channel's state selects STEP. -/
theorem selected_of_active {s : State} {c : Chan} (h : (s.chan c).active = true) : s.selected c = .step := by
  simp [selected_eq, not_unconfigured_of_active h, h]

/-- An Unconfigured channel's state selects LATCH. -/
theorem selected_of_unconfigured {s : State} {c : Chan} (h : (s.chan c).unconfigured = true) :
    s.selected c = .latch := by
  simp [selected_eq, h]

/-- An upstream row of an Active channel outside reset is its transaction (43_bus_sequencer.md R197). -/
theorem upRow_of_active {c : Chan} {o : State → Host.Outcome State Fault Refusal} {s : State} (hr : s.inReset = false)
    (ha : (s.chan c).active = true) : upRow c o s = o s := by
  simp [upRow, hr, ha]

theorem refuses_eq_true {s : State} {c : Chan} {a : Word} :
    s.refuses c a = true ↔ (s.chan c).eng.meetsWindow s.cfg = true ∨ touchesWindow s.cfg a = true := by
  simp [State.refuses]

/-- Settles O22: the evaluation that does not keep off the window is refused, as the selected row and within the tick, and
so is the upstream transaction that meets it. -/
theorem ownWindowAccessIsRefused : Obligations.OwnWindowAccessIsRefused := by
  intro s c hr
  refine ⟨fun ha => ⟨fun h => ?_, fun h => ?_, fun h d => ?_⟩, fun hu hctl hmeets => ?_⟩
  · have hn : ¬ s.stepClear c := by
      rintro ⟨hactive, -⟩
      obtain ⟨hmeets, hread, hwrite⟩ := hactive ha
      simp [hmeets, hread, hwrite] at h
    exact ⟨(exec_selected_row hr (selected_of_active ha)).trans (evalChannel_refused hn), exec_tick_refused hr hn⟩
  · show upRow c (upRead c) s = _
    rw [upRow_of_active hr ha, upRead, if_pos (refuses_eq_true.2 h)]
  · show upRow c (upWrite c d) s = _
    rw [upRow_of_active hr ha, upWrite, if_pos (refuses_eq_true.2 h)]
  · have hn : ¬ s.stepClear c := by
      rintro ⟨-, hlatch⟩
      have hclear : (s.chan c).latched.eng.meetsWindow s.cfg = false := hlatch hu hctl
      exact absurd (hmeets.symm.trans hclear) (by decide)
    exact ⟨(exec_selected_row hr (selected_of_unconfigured hu)).trans (evalChannel_refused hn),
      exec_tick_refused hr hn⟩

/-! ### No step leaves a refused configuration armed -/

/-- The channel is not armed with a refused configuration, the clause of `State.offWindow` about one channel. -/
def Channel.offWindow (cfg : Config) (ch : Channel) : Prop :=
  ch.eng.ctrl = true → ch.eng.meetsWindow cfg = false

theorem offWindow_iff {s : State} : s.offWindow ↔ ∀ c, (s.chan c).offWindow s.cfg := Iff.rfl

/-- LATCH arms no refused configuration, as it is itself refused there; STEP leaves the configuration; SIGNAL leaves it in
a channel that was armed already. -/
theorem evaluated_offWindow {s : State} {c : Chan} (h : (s.chan c).offWindow s.cfg) (hclear : s.stepClear c) :
    (s.chan c).evaluated.offWindow s.cfg := by
  unfold Channel.evaluated
  split
  · rename_i hu
    intro hctrl
    exact hclear.2 hu (by simpa [nonzero] using hctrl)
  · rename_i hu
    have harmed : (s.chan c).eng.ctrl = true := by simpa [Channel.unconfigured] using hu
    split
    · exact h
    · exact fun _ => h harmed

/-- An evaluation that answers keeps both channels' configurations off the window. -/
theorem evalChannel_offWindow {c : Chan} {s t : State} (hs : s.offWindow) (h : evalChannel c s = .next t) :
    t.offWindow := by
  obtain ⟨hself, hother, -, hcfg, -⟩ := evalChannel_regs h
  refine offWindow_iff.2 fun c' => ?_
  rw [hcfg]
  by_cases hc : c' = c
  · subst hc
    rw [hself]
    exact evaluated_offWindow (hs c') (evalChannel_answers_iff.1 ⟨t, h⟩)
  · rw [hother c' hc]
    exact hs c'

/-- Outside the tick class an operation leaves a channel's working copies or resets the channel. -/
theorem afterInstr_eng {i : Instr} (hf : i.format ≠ .tick) (ch : Channel) (c : Chan) (b : Bool) :
    (ch.afterInstr c b i).eng = ch.eng ∨ ch.afterInstr c b i = Channel.reset := by
  have hrow : ¬ (i = .tick ∨ i = tickInstr c (decodeSel ch.sel)) := by
    rintro (rfl | rfl)
    · exact hf rfl
    · exact hf (format_tickInstr _ _)
  unfold Channel.afterInstr
  rw [if_neg hrow]
  split
  · exact .inr rfl
  · refine .inl ?_
    split
    · rfl
    · split
      · rfl
      · split
        · exact setReg_eng _ _ _
        · rfl

/-- Outside the tick class an operation arms no channel and changes no armed configuration. -/
theorem exec_offWindow_of_not_tick {i : Instr} {s t : State} (hf : i.format ≠ .tick) (hs : s.offWindow)
    (h : exec i s = .next t) : t.offWindow := by
  obtain ⟨hchan, -, hcfg⟩ := exec_regs h
  refine offWindow_iff.2 fun c => ?_
  rw [hchan, hcfg]
  obtain he | he := afterInstr_eng hf (s.chan c) c s.inReset
  · rw [Channel.offWindow, he]
    exact hs c
  · rw [he]
    nofun

/-- Every operation keeps the configurations off the window. -/
theorem exec_offWindow {i : Instr} {s t : State} (hs : s.offWindow) (h : exec i s = .next t) : t.offWindow := by
  cases i using instr_by_family with
  | tick =>
    obtain ⟨-, rfl⟩ | ⟨-, u, h1, h2⟩ := execTick_eq_next.1 h
    · exact hs
    · exact evalChannel_offWindow (evalChannel_offWindow hs h1) h2
  | row c op =>
    rw [exec_tickInstr] at h
    obtain ⟨-, -, h1⟩ | ⟨-, rfl⟩ := rowOp_eq_next.1 h
    · exact evalChannel_offWindow hs h1
    · exact hs
  | regWrite c r v => exact exec_offWindow_of_not_tick (by simp) hs h
  | wrNop | rd | resetAssert | resetRelease | uprd | upwr =>
    exact exec_offWindow_of_not_tick (by simp [Instr.format]) hs h

/-- Settles O51: a step performs one operation, which keeps the configurations off the window, on the state whose next
stimulus has been taken. -/
theorem everyStepKeepsConfigurationsOffTheWindow : Obligations.EveryStepKeepsConfigurationsOffTheWindow := by
  intro s t hs h
  have htake : s.takeInput.offWindow := hs
  exact exec_offWindow htake h

end Sys2Proof.Machine
end

section
/-! PROOFS. Bytes and memory (20_memory.md R50 to R53, R70): register values and their bytes, canonical memories, and four
bytes read back after they are written. -/

namespace Sys2Proof.Machine

/-! ### Register values -/

/-- Four bytes weighted by powers of 256 fit 32 bits. -/
theorem toNat_ofNat_of_bytes (b0 b1 b2 b3 : Byte) :
    (BitVec.ofNat 32 (b0.toNat + 2 ^ 8 * b1.toNat + 2 ^ 16 * b2.toNat + 2 ^ 24 * b3.toNat)).toNat =
      b0.toNat + 2 ^ 8 * b1.toNat + 2 ^ 16 * b2.toNat + 2 ^ 24 * b3.toNat := by
  rw [BitVec.toNat_ofNat, Nat.mod_eq_of_lt]
  omega

/-- The bytes of a value, weighted, give the value. -/
theorem value_of_valueBytes (v : Word) :
    (valueByte v 0).toNat + 2 ^ 8 * (valueByte v 1).toNat + 2 ^ 16 * (valueByte v 2).toNat +
      2 ^ 24 * (valueByte v 3).toNat = v.toNat := by
  simp only [valueByte, BitVec.toNat_ofNat]
  omega

/-- Byte `k` of four weighted bytes is the byte of weight `2 ^ (8 * k)`. -/
theorem valueBytes_of_bytes (b0 b1 b2 b3 : Byte) {v : Word}
    (h : v.toNat = b0.toNat + 2 ^ 8 * b1.toNat + 2 ^ 16 * b2.toNat + 2 ^ 24 * b3.toNat) :
    valueByte v 0 = b0 ∧ valueByte v 1 = b1 ∧ valueByte v 2 = b2 ∧ valueByte v 3 = b3 := by
  have h0 := b0.isLt
  have h1 := b1.isLt
  have h2 := b2.isLt
  simp only [← BitVec.toNat_inj, valueByte, BitVec.toNat_ofNat, h]
  omega

/-- Settles O5: big-endian order is little-endian order of the bytes reversed, and weights of 256 determine the bytes. -/
theorem registerValueOfBytes : Obligations.RegisterValueOfBytes := by
  have hlittle : ∀ d : Quad, (regValue .little d).toNat = _ := fun d => toNat_ofNat_of_bytes d.b0 d.b1 d.b2 d.b3
  have hbig : ∀ d : Quad, (regValue .big d).toNat = _ := fun d => toNat_ofNat_of_bytes d.b3 d.b2 d.b1 d.b0
  refine ⟨hlittle, hbig, fun o d => ?_, fun o v => BitVec.eq_of_toNat_eq ?_⟩
  · cases o
    · obtain ⟨h0, h1, h2, h3⟩ := valueBytes_of_bytes _ _ _ _ (hlittle d)
      rw [regBytes, h0, h1, h2, h3]
    · obtain ⟨h0, h1, h2, h3⟩ := valueBytes_of_bytes _ _ _ _ (hbig d)
      rw [regBytes, h0, h1, h2, h3]
  · cases o
    · exact (hlittle _).trans (value_of_valueBytes v)
    · exact (hbig _).trans (value_of_valueBytes v)

/-! ### Canonical memories -/

theorem wfFrom_cons {k low : Nat} {b : Byte} {rest : Memory} :
    Memory.wfFrom low ((k, b) :: rest) = true ↔
      low ≤ k ∧ k < 2 ^ 32 ∧ b ≠ Memory.unlisted ∧ rest.wfFrom (k + 1) = true := by
  simp [Memory.wfFrom, and_assoc]

/-- A canonical memory with an entry does not read like one whose entries all lie above that entry's address. -/
theorem read_ne_of_first_entry {k low : Nat} {b : Byte} {rest m' : Memory}
    (h : Memory.wfFrom low ((k, b) :: rest) = true) (h' : m'.wfFrom (k + 1) = true) :
    Memory.read ((k, b) :: rest) k ≠ m'.read k := by
  obtain ⟨-, -, hb, -⟩ := wfFrom_cons.1 h
  rw [read_below h' (Nat.lt_succ_self k)]
  simpa [Memory.read] using hb

/-- Canonical memories that read alike at every bus address are the same list: the first entries have the same address,
since at the lower one only one of the memories would have a listed byte, and the same byte; at that address the rest of
neither list has an entry. -/
theorem eq_of_read_eq {m m' : Memory} {low low' : Nat} (hm : m.wfFrom low = true) (hm' : m'.wfFrom low' = true)
    (h : ∀ a, a < 2 ^ 32 → m.read a = m'.read a) : m = m' := by
  induction m generalizing m' low low' with
  | nil =>
    cases m' with
    | nil => rfl
    | cons p' rest' =>
      obtain ⟨k', b'⟩ := p'
      obtain ⟨-, hk', -, -⟩ := wfFrom_cons.1 hm'
      exact absurd (h k' hk').symm (read_ne_of_first_entry hm' rfl)
  | cons p rest ih =>
    obtain ⟨k, b⟩ := p
    obtain ⟨-, hk, hb, hrest⟩ := wfFrom_cons.1 hm
    cases m' with
    | nil => exact absurd (h k hk) (read_ne_of_first_entry hm rfl)
    | cons p' rest' =>
      obtain ⟨k', b'⟩ := p'
      obtain ⟨-, hk', hb', hrest'⟩ := wfFrom_cons.1 hm'
      obtain hlt | rfl | hgt := Nat.lt_trichotomy k k'
      · exact absurd (h k hk) (read_ne_of_first_entry hm (wfFrom_cons.2 ⟨hlt, hk', hb', hrest'⟩))
      · have hbyte : b = b' := by simpa [Memory.read] using h k hk
        have htail : ∀ a, a < 2 ^ 32 → Memory.read rest a = Memory.read rest' a := by
          intro a ha
          by_cases hka : k = a
          · subst hka
            rw [read_below hrest (Nat.lt_succ_self k), read_below hrest' (Nat.lt_succ_self k)]
          · simpa [Memory.read, hka] using h a ha
        rw [hbyte, ih hrest hrest' htail]
      · exact absurd (h k' hk').symm (read_ne_of_first_entry hm' (wfFrom_cons.2 ⟨hgt, hk, hb, hrest⟩))

/-- Settles O42: every address below 2^32 is a bus address. -/
theorem canonicalMemoriesAreDeterminedByTheirBytes : Obligations.CanonicalMemoriesAreDeterminedByTheirBytes := by
  intro m m' hm hm' h
  refine eq_of_read_eq hm hm' fun a ha => ?_
  have hword : (BitVec.ofNat 32 a).toNat = a := (BitVec.toNat_ofNat a 32).trans (Nat.mod_eq_of_lt ha)
  simpa only [Memory.byte, hword] using h (BitVec.ofNat 32 a)

/-! ### Four bytes written and read back -/

/-- Four bytes written are the bytes read back at the same address, even where the four addresses wrap. -/
theorem readQuad_writeQuad {m : Memory} (h : m.wf = true) (a : Word) (d : Quad) :
    (m.writeQuad a d).readQuad a = d := by
  have h01 : a ≠ a + 1 := by bv_omega
  have h02 : a ≠ a + 2 := by bv_omega
  have h03 : a ≠ a + 3 := by bv_omega
  have h12 : a + 1 ≠ a + 2 := by bv_omega
  have h13 : a + 1 ≠ a + 3 := by bv_omega
  have h23 : a + 2 ≠ a + 3 := by bv_omega
  simp only [Memory.readQuad, byte_writeQuad h, h01, h02, h03, h12, h13, h23, if_true, if_false]

/-- Four bytes written leave every byte at another address. -/
theorem byte_writeQuad_of_not_inQuad {m : Memory} (h : m.wf = true) {a x : Word} (d : Quad) (hx : ¬ inQuad a x) :
    (m.writeQuad a d).byte x = m.byte x := by
  simp only [inQuad, not_or] at hx
  obtain ⟨h0, h1, h2, h3⟩ := hx
  rw [byte_writeQuad h, if_neg h3, if_neg h2, if_neg h1, if_neg h0]

end Sys2Proof.Machine
end

section
/-! PROOFS. The upstream traffic of a STEP and of a tick (20_memory.md R62, R66, R67, R69; 43_bus_sequencer.md R193): the
transactions in order, and memory after them. -/

namespace Sys2Proof.Machine

/-! ### One STEP -/

/-- A STEP issues its read, then its write of the bytes the read returned (43_bus_sequencer.md R196). -/
theorem stepOp_history {c : Chan} {s t : State} (h : stepOp c s = .next t) :
    t.history = .upWrite c (s.chan c).writeAddr (s.readData (s.chan c).readAddr) ::
      .upRead c (s.chan c).readAddr (s.readData (s.chan c).readAddr) :: s.history := by
  obtain ⟨-, -, rfl⟩ := stepOp_eq_next.1 h
  simp

/-- Memory after a STEP: what other masters left before the write, with the relayed bytes at the target where the platform
services the write. -/
theorem stepOp_mem {c : Chan} {s t : State} (h : stepOp c s = .next t) :
    t.mem =
      if s.openTurn.services (s.chan c).writeAddr then
        (s.openTurn.mem.applyOthers s.openTurn.nextTurn.others).writeQuad (s.chan c).writeAddr
          (s.readData (s.chan c).readAddr)
      else s.openTurn.mem.applyOthers s.openTurn.nextTurn.others := by
  obtain ⟨-, -, rfl⟩ := stepOp_eq_next.1 h
  rw [setChan_mem]
  rfl

/-- The row STEP of an Active channel outside reset is the channel's STEP. -/
theorem exec_step_row {s : State} {c : Chan} (hr : s.inReset = false) (ha : (s.chan c).active = true) :
    exec (tickInstr c .step) s = stepOp c s :=
  (exec_selected_row hr (selected_of_active ha)).trans (evalChannel_active ha)

/-- With no turns listed no other master writes. -/
theorem nextTurn_of_no_turns {s : State} (h : s.turns = []) : s.nextTurn = ⟨[], true⟩ := by
  simp [State.nextTurn, h]

theorem openTurn_of_no_turns {s : State} (h : s.turns = []) : s.openTurn = s := by
  unfold State.openTurn
  rw [nextTurn_of_no_turns h, h]
  cases s
  cases h
  rfl

/-- Settles O19: memory after a STEP is what other masters left before its write, with the relayed bytes written to it or
not. -/
theorem stepMemoryFrame : Obligations.StepMemoryFrame := by
  intro s t c hwf hr ha h m1 m2 a b
  rw [exec_step_row hr ha] at h
  have hm2 : m2.wf = true := applyOthers_wf (applyOthers_wf hwf)
  have hmem : t.mem = if s.openTurn.services b then m2.writeQuad b (s.readData a) else m2 := stepOp_mem h
  refine ⟨s.readData a, stepOp_history h, fun hs => ?_, fun hs => ?_, fun hs => ?_, fun x hx => ?_, fun hturns => ?_⟩
  · exact if_pos hs
  · rw [hs, if_pos rfl] at hmem
    have hquad : t.mem.readQuad b = s.readData a := by rw [hmem, readQuad_writeQuad hm2]
    simp [← hquad, Memory.readQuad]
  · simpa [hs] using hmem
  · rw [hmem]
    split
    · exact byte_writeQuad_of_not_inQuad hm2 _ hx
    · rfl
  · show s.openTurn.mem.applyOthers s.openTurn.nextTurn.others = s.mem
    rw [openTurn_of_no_turns hturns, nextTurn_of_no_turns hturns]
    rfl

/-! ### A tick with both channels Active -/

/-- A tick with both channels Active and clear of the window is channel 1's STEP, then channel 2's, which finds channel 2
as it was. -/
theorem exec_tick_of_both_active {s : State} (hr : s.inReset = false) (ha1 : s.ch1.active = true)
    (ha2 : s.ch2.active = true) (h1 : s.stepClear .ch1) (h2 : s.stepClear .ch2) :
    ∃ u t, stepOp .ch1 s = .next u ∧ u.ch2 = s.ch2 ∧ stepOp .ch2 u = .next t ∧ exec .tick s = .next t := by
  obtain ⟨u, hu⟩ := evalChannel_answers_iff.2 h1
  obtain ⟨-, hother, -, hcfg, -⟩ := evalChannel_regs hu
  have hch2 : u.chan .ch2 = s.chan .ch2 := hother .ch2 nofun
  obtain ⟨t, ht⟩ := evalChannel_answers_iff.2 ((stepClear_congr hch2 hcfg).2 h2)
  have hua2 : (u.chan .ch2).active = true := (congrArg Channel.active hch2).trans ha2
  refine ⟨u, t, ?_, hch2, ?_, ?_⟩
  · rw [← evalChannel_active (c := .ch1) ha1, hu]
  · rw [← evalChannel_active hua2, ht]
  · rw [exec_tick_of_not_inReset hr, hu, andThen_next, ht]

/-- Settles O29: each channel's STEP issues its pair, channel 1's STEP first. -/
theorem tickTransactionOrder : Obligations.TickTransactionOrder := by
  intro s hr ha1 ha2 h1 h2
  obtain ⟨u, t, hu, hch2, ht, htick⟩ := exec_tick_of_both_active hr ha1 ha2 h1 h2
  refine ⟨t, s.readData s.ch1.readAddr, u.readData u.ch2.readAddr, htick, ?_⟩
  rw [stepOp_history ht, stepOp_history hu, chan_ch2, hch2]
  rfl

/-! ### The reference environment -/

/-- In the reference environment the platform services every transaction (20_memory.md R70). -/
theorem services_of_calm {s : State} (h : s.calm) (a : Word) : s.services a = true := by
  obtain ⟨hturns, hserved⟩ := h
  simp [State.services, nextTurn_of_no_turns hturns, mapped, hserved]

/-- In the reference environment a read returns memory's bytes. -/
theorem readData_of_calm {s : State} (h : s.calm) (a : Word) : s.readData a = s.mem.readQuad a := by
  rw [State.readData, if_pos (services_of_calm h a), openTurn_of_no_turns h.1]

/-- In the reference environment a STEP copies four bytes and the environment stays the reference one. -/
theorem stepOp_of_calm {c : Chan} {s t : State} (hs : s.calm) (h : stepOp c s = .next t) :
    t.calm ∧ t.mem = s.mem.writeQuad (s.chan c).writeAddr (s.mem.readQuad (s.chan c).readAddr) := by
  have ⟨hturns, hserved⟩ := hs
  constructor
  · obtain ⟨-, -, rfl⟩ := stepOp_eq_next.1 h
    simp [State.calm, hturns, hserved]
  · rw [stepOp_mem h, openTurn_of_no_turns hturns, if_pos (services_of_calm hs _), nextTurn_of_no_turns hturns,
      readData_of_calm hs]
    rfl

/-- Settles O30: channel 1's STEP has written the bytes it read where channel 2's STEP then reads. -/
theorem channelTwoReadsWhatChannelOneWrote : Obligations.ChannelTwoReadsWhatChannelOneWrote := by
  intro s hwf hcalm hr ha1 ha2 h1 h2 haddr
  obtain ⟨u, t, hu, hch2, ht, htick⟩ := exec_tick_of_both_active hr ha1 ha2 h1 h2
  obtain ⟨hucalm, humem⟩ := stepOp_of_calm hcalm hu
  have hrelay : u.readData u.ch2.readAddr = s.mem.readQuad s.ch1.readAddr := by
    rw [readData_of_calm hucalm, humem, hch2, haddr]
    exact readQuad_writeQuad hwf _ _
  refine ⟨t, htick, ?_⟩
  rw [stepOp_history ht, stepOp_history hu, chan_ch2, hrelay, hch2, readData_of_calm hcalm]
  rfl

end Sys2Proof.Machine
end

section
/-! PROOFS. The decoder and the encoder (30_encoding.md): the register-select table as an equivalence, the two kinds of
downstream write, the tick selector, and the round trips. -/

namespace Sys2Proof.Machine

/-! ### The register-select table -/

/-- The eight recognised offsets are those of the two channels' four registers (30_encoding.md R82, Table T82). -/
theorem mem_recognisedOffsets {off : Word} : off ∈ recognisedOffsets ↔ ∃ c r, off = regOffset c r := by
  constructor
  · intro h
    simp only [recognisedOffsets, List.mem_cons, List.not_mem_nil, or_false] at h
    obtain h | h | h | h | h | h | h | h := h
    · exact ⟨.ch1, .source, h⟩
    · exact ⟨.ch1, .target, h⟩
    · exact ⟨.ch1, .size, h⟩
    · exact ⟨.ch1, .control, h⟩
    · exact ⟨.ch2, .source, h⟩
    · exact ⟨.ch2, .target, h⟩
    · exact ⟨.ch2, .size, h⟩
    · exact ⟨.ch2, .control, h⟩
  · rintro ⟨c, r, rfl⟩
    cases c <;> cases r <;> decide

/-- The bits of a register's offset select that register (30_encoding.md R81). -/
@[simp] theorem selectReg_regOffset (c : Chan) (r : Reg) : selectReg (regOffset c r) = some (c, r) := by
  cases c <;> cases r <;> decide

/-- Zero bits 31 to 5 and 1 to 0 leave only the multiples of 4 below 32, so no other offset selects a register. -/
theorem selectReg_of_unrecognised {off : Word} (h : off ∉ recognisedOffsets) : selectReg off = none := by
  refine if_neg fun ⟨hhi, hlo⟩ => h ?_
  have hlt : off.toNat / 32 % 2 ^ 27 = 0 := by
    simpa [BitVec.extractLsb'_toNat, Nat.shiftRight_eq_div_pow] using congrArg BitVec.toNat hhi
  have hmod : off.toNat % 4 = 0 := by
    simpa [BitVec.extractLsb'_toNat] using congrArg BitVec.toNat hlo
  simp only [recognisedOffsets, List.mem_cons, List.not_mem_nil, or_false, ← BitVec.toNat_inj,
    BitVec.reduceToNat]
  omega

/-! ### The two kinds of downstream write -/

theorem wf_wrNop_iff {off : Word} {data : List Byte} :
    (Instr.wrNop off data).wf = true ↔ data.length ≠ 4 ∨ off ∉ recognisedOffsets := by
  simp [Instr.wf]

/-- Four bytes in a list are the bytes of one transaction (20_memory.md R51). -/
theorem exists_quad_of_length {data : List Byte} (h : data.length = 4) : ∃ d : Quad, data = d.toList := by
  match data, h with
  | [b0, b1, b2, b3], _ => exact ⟨⟨b0, b1, b2, b3⟩, rfl⟩

/-- A downstream write carries four bytes to a register, or it is one that `WR.NOP` stands for (30_encoding.md R86). -/
theorem downstreamWrite_cases (off : Word) (data : List Byte) :
    (∃ c r, ∃ d : Quad, off = regOffset c r ∧ data = d.toList) ∨ (Instr.wrNop off data).wf = true := by
  rw [wf_wrNop_iff]
  by_cases hlen : data.length = 4
  · by_cases hoff : off ∈ recognisedOffsets
    · obtain ⟨c, r, hreg⟩ := mem_recognisedOffsets.1 hoff
      obtain ⟨d, hdata⟩ := exists_quad_of_length hlen
      exact .inl ⟨c, r, d, hreg, hdata⟩
    · exact .inr (.inr hoff)
  · exact .inr (.inl hlen)

/-- A 4-byte write at a register's offset is the write of that register (30_encoding.md R82, R83). -/
theorem decodeWrite_regOffset (order : ByteOrder) (c : Chan) (r : Reg) (d : Quad) :
    decodeWrite order (regOffset c r) d.toList = wrInstr c r (regValue order d) := by
  simp [decodeWrite]

/-- Any other write is `WR.NOP` (30_encoding.md R86). -/
theorem decodeWrite_of_wf_wrNop {off : Word} {data : List Byte} (order : ByteOrder)
    (h : (Instr.wrNop off data).wf = true) : decodeWrite order off data = .wrNop off data := by
  unfold decodeWrite
  split
  · have hoff : off ∉ recognisedOffsets := (wf_wrNop_iff.1 h).resolve_left (· rfl)
    rw [selectReg_of_unrecognised hoff]
  · rfl

theorem decode_write_dmaBase_add (cfg : Config) (off : Word) (data : List Byte) :
    decode cfg (.write (cfg.dmaBase + off) data) = decodeWrite cfg.byteOrder off data := by
  have hoff : cfg.dmaBase + off - cfg.dmaBase = off := by rw [BitVec.add_comm, BitVec.add_sub_cancel]
  rw [decode, hoff]

/-- The same, from the bus address: the decoder subtracts the window's base (10_state.md R25). -/
theorem decode_write_regOffset (cfg : Config) (c : Chan) (r : Reg) (d : Quad) :
    decode cfg (.write (cfg.dmaBase + regOffset c r) d.toList) = wrInstr c r (regValue cfg.byteOrder d) := by
  rw [decode_write_dmaBase_add, decodeWrite_regOffset]

/-- Settles O4: at each of the eight offsets the table gives that offset's register. -/
theorem registerSelectTable : Obligations.RegisterSelectTable := fun cfg d =>
  ⟨decode_write_regOffset cfg .ch1 .source d, decode_write_regOffset cfg .ch1 .target d,
    decode_write_regOffset cfg .ch1 .size d, decode_write_regOffset cfg .ch1 .control d,
    decode_write_regOffset cfg .ch2 .source d, decode_write_regOffset cfg .ch2 .target d,
    decode_write_regOffset cfg .ch2 .size d, decode_write_regOffset cfg .ch2 .control d⟩

/-! ### The tick selector -/

@[simp] theorem decode_select (cfg : Config) (c : Chan) (sel : BitVec 2) :
    decode cfg (.select c sel) = tickInstr c (decodeSel sel) := rfl

/-- The selector of a channel's elements chooses by its logical state, as it does in any state that holds them. -/
theorem decodeSel_sel (ch : Channel) :
    decodeSel ch.sel = if ch.unconfigured then .latch else if ch.active then .step else .signal :=
  selected_eq { State.reset with ch1 := ch } .ch1

/-- Settles O6: CTRL false is Unconfigured, CTRL true is Active or Complete as OFFSET compares to SIZE. -/
theorem tickSelectorTable : Obligations.TickSelectorTable := by
  intro cfg ch
  simp only [decode_select, decodeSel_sel, Channel.unconfigured, Channel.active]
  refine ⟨fun hctrl => ?_, fun hctrl hlt => ?_, fun hctrl hle => ?_⟩
  · simp [hctrl, tickInstr]
  · have hbelow : ch.below = true := (below_iff ch).2 hlt
    simp [hctrl, hbelow, tickInstr]
  · have hbelow : ch.below = false := Bool.eq_false_iff.2 fun h => Nat.not_lt.2 hle ((below_iff ch).1 h)
    simp [hctrl, hbelow, tickInstr]

/-! ### The round trips -/

@[simp] theorem regBytes_regValue (order : ByteOrder) (d : Quad) : regBytes order (regValue order d) = d :=
  have ⟨_, _, hbytes, _⟩ := registerValueOfBytes
  hbytes order d

@[simp] theorem regValue_regBytes (order : ByteOrder) (v : Word) : regValue order (regBytes order v) = v :=
  have ⟨_, _, _, hvalue⟩ := registerValueOfBytes
  hvalue order v

@[simp] theorem encode_wrInstr (cfg : Config) (c : Chan) (r : Reg) (v : Word) :
    encode cfg (wrInstr c r v) = .write (cfg.dmaBase + regOffset c r) (regBytes cfg.byteOrder v).toList := by
  cases c <;> cases r <;> rfl

/-- The selector that the encoder writes for a tick row selects that row (30_encoding.md R87). -/
theorem decode_encode_tickInstr (cfg : Config) (c : Chan) (op : TickOp) :
    decode cfg (encode cfg (tickInstr c op)) = tickInstr c op := by
  cases c <;> cases op <;> rfl

/-- Settles O1: a register write's offset and bytes, a `WR.NOP`'s offset and length and a tick row's selector each
determine the operation; every other operation has a frame of its own. -/
theorem decodeEncodeRoundTrip : Obligations.DecodeEncodeRoundTrip := by
  intro cfg i hwf
  cases i using instr_by_family with
  | regWrite c r v => rw [encode_wrInstr, decode_write_regOffset, regValue_regBytes]
  | wrNop off data => exact (decode_write_dmaBase_add cfg off data).trans (decodeWrite_of_wf_wrNop _ hwf)
  | row c op => exact decode_encode_tickInstr cfg c op
  | rd addr len => rfl
  | tick => rfl
  | resetAssert => rfl
  | resetRelease => rfl
  | uprd c => rfl
  | upwr c d => rfl

/-- Settles O3: a write is the encoding of its register's write with its bytes' value, or of the `WR.NOP` that
carries its offset and bytes. -/
theorem writeTransactionsRoundTrip : Obligations.WriteTransactionsRoundTrip := by
  intro cfg addr data
  obtain ⟨off, rfl⟩ : ∃ off, addr = cfg.dmaBase + off :=
    ⟨addr - cfg.dmaBase, by rw [BitVec.add_comm, BitVec.sub_add_cancel]⟩
  rw [decode_write_dmaBase_add]
  obtain ⟨c, r, d, rfl, rfl⟩ | hnop := downstreamWrite_cases off data
  · rw [decodeWrite_regOffset, encode_wrInstr, regBytes_regValue]
  · rw [decodeWrite_of_wf_wrNop _ hnop, encode]

/-! ### What the decoder answers -/

@[simp] theorem wf_wrInstr (c : Chan) (r : Reg) (v : Word) : (wrInstr c r v).wf = true := by
  cases c <;> cases r <;> rfl

@[simp] theorem wf_tickInstr (c : Chan) (op : TickOp) : (tickInstr c op).wf = true := by
  cases c <;> cases op <;> rfl

theorem decodeWrite_wf (order : ByteOrder) (off : Word) (data : List Byte) :
    (decodeWrite order off data).wf = true := by
  obtain ⟨c, r, d, rfl, rfl⟩ | hnop := downstreamWrite_cases off data
  · rw [decodeWrite_regOffset, wf_wrInstr]
  · rwa [decodeWrite_of_wf_wrNop _ hnop]

/-- Settles O2: only a write can decode to `WR.NOP`, and then it is one of those that `WR.NOP` stands for. -/
theorem decodedOperationsAreWellFormed : Obligations.DecodedOperationsAreWellFormed := by
  intro cfg f
  cases f with
  | write addr data => exact decodeWrite_wf cfg.byteOrder (addr - cfg.dmaBase) data
  | select c sel => exact wf_tickInstr c (decodeSel sel)
  | resetLine level => cases level <;> rfl
  | read addr len => rfl
  | tick => rfl
  | upRead c => rfl
  | upWrite c d => rfl

/-- Settles O7: fifteen closed frames, decoded by evaluation. -/
theorem encodingsWrittenOut : Obligations.EncodingsWrittenOut := by
  unfold Obligations.EncodingsWrittenOut
  decide

/-! ### A step decodes and performs the next stimulus -/

/-- A step with a stimulus pending takes it away and performs what its frame decodes to (30_encoding.md R93). -/
theorem step_of_inputs_cons {s : State} {x : Stimulus} {rest : List Stimulus} (h : s.inputs = x :: rest) :
    step s = exec (decode s.cfg (s.frameOf x)) { s with inputs := rest } := by
  simp only [step, State.nextInstr, State.nextFrame, State.takeInput, h, List.tail_cons]

/-- A step with nothing pending is a clock tick (70_reset_and_hazards.md R258, log 3). -/
theorem step_of_no_inputs {s : State} (h : s.inputs = []) : step s = exec .tick s := by
  have htake : s.takeInput = s := by
    cases s
    cases h
    rfl
  simp only [step, State.nextInstr, State.nextFrame, h, htake, decode]

/-- Settles O8: each stimulus is its frame, an evaluation's with the selector of the channel's state. -/
theorem stepRunsTheDecodedOperation : Obligations.StepRunsTheDecodedOperation := fun _ _ =>
  ⟨fun _ _ => step_of_inputs_cons, fun _ _ => step_of_inputs_cons, step_of_inputs_cons,
    fun _ => step_of_inputs_cons, fun _ => step_of_inputs_cons, step_of_no_inputs⟩

end Sys2Proof.Machine
end

section
/-! PROOFS. The register window (40_register_window.md): the rule of a register write for every channel and register, what
CONTROL's value does at the next evaluations, writes in either order, and the transactions that change nothing. -/

namespace Sys2Proof.Machine

/-! ### A register write, accepted and dropped -/

theorem accepts_iff {s : State} {c : Chan} :
    s.accepts c = true ↔ s.inReset = false ∧ (s.chan c).active = false := by
  simp [State.accepts]

theorem setChan_with_history (s : State) (c : Chan) (ch : Channel) (es : List Event) :
    { s.setChan c ch with history := es } = { s with history := es }.setChan c ch := by
  cases c <;> rfl

/-- An accepted register write replaces its register and is answered `OK` (40_register_window.md R110). -/
theorem regWrite_of_accepts {s : State} {c : Chan} (h : s.accepts c = true) (r : Reg) (v : Word) :
    s.regWrite c r v = (s.log (regWriteEvent s.cfg c r v)).setChan c ((s.chan c).setReg r v) :=
  if_pos h

/-- A dropped register write is answered `OK` and does nothing else (40_register_window.md R111, R122). -/
theorem regWrite_of_not_accepts {s : State} {c : Chan} (h : ¬ s.accepts c = true) (r : Reg) (v : Word) :
    s.regWrite c r v = s.log (regWriteEvent s.cfg c r v) :=
  if_neg h

/-- Every register write row follows the rule of its register's offset; `put` says in the rule's words which register of
the window that is. -/
theorem registerWriteRule_regOffset (c : Chan) (r : Reg) {put : Window → Word → Window}
    (hput : ∀ (ch : Channel) (v : Word), ch.setReg r v = { ch with win := put ch.win v }) :
    registerWriteRule c (regOffset c r) (wrInstr c r) put := by
  intro s v
  refine ⟨?_, fun hr ha => ?_, fun hdrop => ?_⟩
  · rw [decode_write_regOffset, regValue_regBytes]
  · rw [exec_wrInstr, regWrite_of_accepts (accepts_iff.2 ⟨hr, ha⟩), hput, setChan_with_history]
    rfl
  · have hna : ¬ s.accepts c = true := by
      rw [accepts_iff]
      rintro ⟨hr, ha⟩
      simp [hr, ha] at hdrop
    rw [exec_wrInstr, regWrite_of_not_accepts hna]
    rfl

/-- Settles O10: three registers of channel 1, each by the rule of its offset. -/
theorem registerWritesOfChannel1 : Obligations.RegisterWritesOfChannel1 :=
  ⟨registerWriteRule_regOffset .ch1 .source fun _ _ => rfl, registerWriteRule_regOffset .ch1 .target fun _ _ => rfl,
    registerWriteRule_regOffset .ch1 .size fun _ _ => rfl⟩

/-- Settles O11: three registers of channel 2, each by the rule of its offset. -/
theorem registerWritesOfChannel2 : Obligations.RegisterWritesOfChannel2 :=
  ⟨registerWriteRule_regOffset .ch2 .source fun _ _ => rfl, registerWriteRule_regOffset .ch2 .target fun _ _ => rfl,
    registerWriteRule_regOffset .ch2 .size fun _ _ => rfl⟩

/-! ### The rows LATCH and SIGNAL where the channel's state selects them -/

/-- An Unconfigured channel is not Active. -/
theorem not_active_of_unconfigured {ch : Channel} (h : ch.unconfigured = true) : ch.active = false := by
  have hctrl : ch.eng.ctrl = false := by simpa [Channel.unconfigured] using h
  simp [Channel.active, hctrl]

/-- Complete is the state that is neither Unconfigured nor Active (00_scope.md R11). -/
theorem complete_iff {ch : Channel} : ch.complete = true ↔ ch.unconfigured = false ∧ ch.active = false := by
  unfold Channel.complete Channel.unconfigured Channel.active
  cases ch.eng.ctrl <;> simp

/-- A Complete channel's state selects SIGNAL. -/
theorem selected_of_complete {s : State} {c : Chan} (h : (s.chan c).complete = true) : s.selected c = .signal := by
  obtain ⟨hu, ha⟩ := complete_iff.1 h
  simp [selected_eq, hu, ha]

/-- The LATCH of an Unconfigured channel that arms nothing on the own window (41_transfer_engine.md R142, R143). -/
theorem exec_latch_row {s : State} {c : Chan} (hr : s.inReset = false) (hu : (s.chan c).unconfigured = true)
    (harm : (s.chan c).armsOwnWindow s.cfg = false) :
    exec (tickInstr c .latch) s = .next (s.setChanIrq c (s.chan c).latched) := by
  have hsel := selected_of_unconfigured hu
  rw [exec_selected_row hr hsel, evalChannel, hsel]
  exact latchOp_eq_next.2 ⟨harm, rfl⟩

/-- The SIGNAL of a Complete channel (41_transfer_engine.md R146, R147). -/
theorem exec_signal_row {s : State} {c : Chan} (hr : s.inReset = false) (hc : (s.chan c).complete = true) :
    exec (tickInstr c .signal) s = .next (s.setChanIrq c (s.chan c).signalled) := by
  have hsel := selected_of_complete hc
  rw [exec_selected_row hr hsel, evalChannel, hsel]
  rfl

/-! ### CONTROL arms and acknowledges -/

/-- A register write outside reset to a channel that is not Active sets that channel's register. -/
theorem regWrite_chan_self {s : State} {c : Chan} (hr : s.inReset = false) (ha : (s.chan c).active = false) (r : Reg)
    (v : Word) : (s.regWrite c r v).chan c = (s.chan c).setReg r v := by
  rw [regWrite_chan, if_pos ⟨rfl, hr, ha⟩]

/-- The LATCH of an Unconfigured channel loads the control flag with the truth of CONTROL (spec decision D1). -/
theorem latch_row_loads_control {t : State} {c : Chan} (hr : t.inReset = false) (hu : (t.chan c).unconfigured = true)
    (hoff : (t.chan c).win.control ≠ 0 → (t.chan c).latched.eng.meetsWindow t.cfg = false) :
    ∃ u, exec (tickInstr c .latch) t = .next u ∧ ((u.chan c).eng.ctrl = true ↔ (t.chan c).win.control ≠ 0) :=
  ⟨_, exec_latch_row hr hu (armsOwnWindow_eq_false.2 hoff), by simp [nonzero]⟩

/-- A Complete channel with CONTROL 0 (60_exceptions.md R216): its SIGNAL raises the line and clears the control flag; the
LATCH after that, which finds CONTROL 0 and so arms nothing, clears the line. -/
theorem signal_row_then_latch_row {t : State} {c : Chan} (hr : t.inReset = false) (hc : (t.chan c).complete = true)
    (hzero : (t.chan c).win.control = 0) :
    ∃ u w, exec (tickInstr c .signal) t = .next u ∧ (u.chan c).unconfigured = true ∧ (u.chan c).irq = true ∧
      exec (tickInstr c .latch) u = .next w ∧ (w.chan c).irq = false ∧ (w.chan c).unconfigured = true := by
  have hun : ((t.setChanIrq c (t.chan c).signalled).chan c).unconfigured = true := by
    simp [Channel.unconfigured, nonzero, hzero]
  have hlatch := exec_latch_row (s := t.setChanIrq c (t.chan c).signalled) (by simpa using hr) hun
    (armsOwnWindow_of_control_zero (by simpa using hzero))
  exact ⟨_, _, exec_signal_row hr hc, hun, by simp, hlatch, by simp, by simp [Channel.unconfigured, nonzero, hzero]⟩

/-- CONTROL written to an Unconfigured channel does nothing to the engine or the line; the LATCH after it arms the channel
exactly if the value is nonzero. -/
theorem control_write_then_latch {s : State} {c : Chan} (hr : s.inReset = false)
    (hu : (s.chan c).unconfigured = true) {v : Word}
    (hoff : v ≠ 0 → (⟨(s.chan c).win.source, (s.chan c).win.target, (s.chan c).win.size, true⟩ : Engine).meetsWindow
      s.cfg = false) :
    ∃ t u, exec (wrInstr c .control v) s = .next t ∧ (t.chan c).eng.ctrl = false ∧ (t.chan c).irq = (s.chan c).irq ∧
      exec (tickInstr c .latch) t = .next u ∧ ((u.chan c).eng.ctrl = true ↔ v ≠ 0) := by
  have hchan := regWrite_chan_self hr (not_active_of_unconfigured hu) .control v
  have hcontrol : ((s.regWrite c .control v).chan c).win.control = v := by rw [hchan]; rfl
  have hctrl : ((s.regWrite c .control v).chan c).eng.ctrl = false := by
    simpa [hchan, Channel.unconfigured] using hu
  -- `meetsWindow` reads the two addresses and the size, not the control flag, so `hoff` speaks of this configuration too.
  have harm : ((s.regWrite c .control v).chan c).win.control ≠ 0 →
      ((s.regWrite c .control v).chan c).latched.eng.meetsWindow (s.regWrite c .control v).cfg = false := by
    rw [hcontrol, hchan, regWrite_cfg]
    exact hoff
  obtain ⟨u, hlatch, hloads⟩ :=
    latch_row_loads_control (by simpa using hr) (by simpa [Channel.unconfigured] using hctrl) harm
  exact ⟨_, u, exec_wrInstr c .control v s, hctrl, by rw [hchan, setReg_irq], hlatch, by rwa [hcontrol] at hloads⟩

/-- CONTROL written 0 to a Complete channel leaves the line, which the LATCH after the next SIGNAL clears. -/
theorem control_zero_write_then_signal_then_latch {s : State} {c : Chan} (hr : s.inReset = false)
    (hcomp : (s.chan c).complete = true) :
    ∃ t u w, exec (wrInstr c .control 0) s = .next t ∧ (t.chan c).irq = (s.chan c).irq ∧
      exec (tickInstr c .signal) t = .next u ∧ (u.chan c).unconfigured = true ∧ (u.chan c).irq = true ∧
      exec (tickInstr c .latch) u = .next w ∧ (w.chan c).irq = false ∧ (w.chan c).unconfigured = true := by
  have hchan := regWrite_chan_self hr (complete_iff.1 hcomp).2 .control 0
  obtain ⟨u, w, hevals⟩ := signal_row_then_latch_row (t := s.regWrite c .control 0) (c := c) (by simpa using hr)
    (by rw [hchan]; exact hcomp) (by rw [hchan]; rfl)
  exact ⟨_, u, w, exec_wrInstr c .control 0 s, by rw [hchan, setReg_irq], hevals⟩

/-- Settles O12: the rule of CONTROL's two offsets, and what the evaluations after the write do with the value. -/
theorem controlWritesArmAndAcknowledge : Obligations.ControlWritesArmAndAcknowledge :=
  ⟨registerWriteRule_regOffset .ch1 .control fun _ _ => rfl, registerWriteRule_regOffset .ch2 .control fun _ _ => rfl,
    fun _ _ hr => ⟨fun hu _ hoff => control_write_then_latch hr hu hoff, control_zero_write_then_signal_then_latch hr⟩⟩

/-! ### Two register writes -/

@[simp] theorem setReg_active (ch : Channel) (r : Reg) (v : Word) : (ch.setReg r v).active = ch.active := by
  cases r <;> rfl

theorem setReg_comm (ch : Channel) {r r' : Reg} (h : r ≠ r') (v v' : Word) :
    (ch.setReg r v).setReg r' v' = (ch.setReg r' v').setReg r v := by
  cases r <;> cases r' <;> simp [Channel.setReg] at h ⊢

@[simp] theorem setReg_setReg_self (ch : Channel) (r : Reg) (v : Word) :
    (ch.setReg r v).setReg r v = ch.setReg r v := by
  cases r <;> rfl

/-- No register write changes which channels are Active, so an earlier write never decides whether a later one is
accepted (40_register_window.md R125). -/
@[simp] theorem regWrite_chan_active (s : State) (c c' : Chan) (r : Reg) (v : Word) :
    ((s.regWrite c' r v).chan c).active = (s.chan c).active := by
  rw [regWrite_chan]
  split <;> simp

theorem regWrite_comm_chan (s : State) {c c' : Chan} {r r' : Reg} (h : (c, r) ≠ (c', r')) (v v' : Word) (d : Chan) :
    ((s.regWrite c r v).regWrite c' r' v').chan d = ((s.regWrite c' r' v').regWrite c r v).chan d := by
  rw [regWrite_chan (s.regWrite c r v), regWrite_chan (s.regWrite c' r' v')]
  simp only [regWrite_chan_active, regWrite_inReset]
  by_cases hacc : s.inReset = false ∧ (s.chan d).active = false
  · by_cases hc : d = c
    · by_cases hc' : d = c'
      · subst hc hc'
        have hreg : r ≠ r' := fun hrr => h (by rw [hrr])
        simp [regWrite_chan, hacc, setReg_comm _ hreg]
      · simp [regWrite_chan, hc']
    · simp [regWrite_chan, hc]
  · simp [regWrite_chan, hacc]

theorem regWrite_idem_chan (s : State) (c : Chan) (r : Reg) (v : Word) (d : Chan) :
    ((s.regWrite c r v).regWrite c r v).chan d = (s.regWrite c r v).chan d := by
  rw [regWrite_chan (s.regWrite c r v)]
  split
  next hacc =>
    obtain ⟨rfl, hr, ha⟩ := hacc
    rw [regWrite_inReset] at hr
    rw [regWrite_chan_active] at ha
    simp [regWrite_chan_self hr ha]
  next => rfl

/-- Settles O16: whether a write is accepted does not depend on the writes before it, and a channel's registers are
replaced independently of each other. -/
theorem registerWritesCommute : Obligations.RegisterWritesCommute := by
  refine ⟨fun s t u t' u' c c' r r' v v' hne h1 h2 h1' h2' => ?_, fun s t u c r v h1 h2 => ?_⟩
  · simp only [exec_wrInstr, Host.Outcome.next.injEq] at h1 h2 h1' h2'
    subst h1 h2 h1' h2'
    exact ⟨regWrite_comm_chan s hne v v' .ch1, regWrite_comm_chan s hne v v' .ch2⟩
  · simp only [exec_wrInstr, Host.Outcome.next.injEq] at h1 h2
    subst h1 h2
    exact ⟨regWrite_idem_chan s c r v .ch1, regWrite_idem_chan s c r v .ch2⟩

/-! ### The transactions that change nothing -/

/-- `WR.NOP` only records its answer (40_register_window.md R120, R121). -/
theorem exec_wrNop (s : State) (off : Word) (data : List Byte) :
    exec (.wrNop off data) s =
      .next { s with history := .dnWrite (s.cfg.dmaBase + off) data .ok :: s.history } := rfl

/-- A write that `WR.NOP` stands for only records its answer, at the bus address it was sent to. -/
theorem exec_decode_write_of_wf_wrNop {s : State} {addr : Word} {data : List Byte}
    (h : (Instr.wrNop (addr - s.cfg.dmaBase) data).wf = true) :
    exec (decode s.cfg (.write addr data)) s = .next { s with history := .dnWrite addr data .ok :: s.history } := by
  have haddr : s.cfg.dmaBase + (addr - s.cfg.dmaBase) = addr := by rw [BitVec.add_comm, BitVec.sub_add_cancel]
  rw [decode, decodeWrite_of_wf_wrNop _ h, exec_wrNop, haddr]

/-- Settles O13: such a write is one that `WR.NOP` stands for, by its offset. -/
theorem unrecognisedOffsetWritesChangeNothing : Obligations.UnrecognisedOffsetWritesChangeNothing :=
  fun _ _ _ hoff => exec_decode_write_of_wf_wrNop (wf_wrNop_iff.2 (.inr hoff))

/-- Settles O14: such a write is one that `WR.NOP` stands for, by its length. -/
theorem otherLengthWritesChangeNothing : Obligations.OtherLengthWritesChangeNothing := fun s =>
  ⟨fun _ _ hlen => exec_decode_write_of_wf_wrNop (wf_wrNop_iff.2 (.inl hlen)), exec_wrNop s⟩

@[simp] theorem length_freeBytes (draws n : Nat) : (freeBytes draws n).length = n := by
  simp [freeBytes]

/-- Settles O15: the bytes answered are the next free ones, which the draw counter then passes. -/
theorem readsChangeNothing : Obligations.ReadsChangeNothing := fun s _ len =>
  ⟨freeBytes s.draws len, length_freeBytes s.draws len, rfl⟩

end Sys2Proof.Machine
end

section
/-! PROOFS. The transfer engine, one operation and one tick (41_transfer_engine.md R140 to R157): the rows where a channel's
state selects them, a channel's registers after a tick by its logical state, and the channel's upstream addresses. -/

namespace Sys2Proof.Machine

/-! ### The logical states and the evaluation in each -/

theorem unconfigured_iff {ch : Channel} : ch.unconfigured = true ↔ ch.eng.ctrl = false := by
  simp [Channel.unconfigured]

theorem active_iff {ch : Channel} : ch.active = true ↔ ch.eng.ctrl = true ∧ ch.offset < ch.eng.size := by
  rw [Channel.active, Bool.and_eq_true, below_iff, BitVec.lt_def]

theorem complete_iff_size_le {ch : Channel} : ch.complete = true ↔ ch.eng.ctrl = true ∧ ch.eng.size ≤ ch.offset := by
  rw [Channel.complete, Bool.and_eq_true, Bool.not_eq_true', Bool.eq_false_iff, Ne, below_iff, Nat.not_lt, BitVec.le_def]

theorem evaluated_of_unconfigured {ch : Channel} (h : ch.unconfigured = true) : ch.evaluated = ch.latched :=
  if_pos h

theorem evaluated_of_active {ch : Channel} (h : ch.active = true) : ch.evaluated = ch.advanced := by
  simp [Channel.evaluated, not_unconfigured_of_active h, h]

theorem evaluated_of_complete {ch : Channel} (h : ch.complete = true) : ch.evaluated = ch.signalled := by
  obtain ⟨hu, ha⟩ := complete_iff.1 h
  simp [Channel.evaluated, hu, ha]

/-! ### The rows LATCH, STEP and SIGNAL where the channel's state selects them -/

theorem setChanIrq_latched (s : State) (c : Chan) :
    s.setChanIrq c (s.chan c).latched =
      { s.setChan c (s.chan c).latched with
        history := if (s.chan c).irq then .irq c false :: s.history else s.history } := by
  cases hirq : (s.chan c).irq <;> simp [State.setChanIrq, irqEvents, hirq]

theorem setChanIrq_signalled (s : State) (c : Chan) :
    s.setChanIrq c (s.chan c).signalled =
      { s.setChan c (s.chan c).signalled with
        history := if (s.chan c).irq then s.history else .irq c true :: s.history } := by
  cases hirq : (s.chan c).irq <;> simp [State.setChanIrq, irqEvents, hirq]

/-- Settles O17: the row is the LATCH of an Unconfigured channel, and only the fall of a true line is recorded. -/
theorem latchLoadsTheWorkingCopies : Obligations.LatchLoadsTheWorkingCopies := by
  intro s hr
  have hrow : ∀ c, (s.chan c).eng.ctrl = false →
      ((s.chan c).win.control ≠ 0 → (s.chan c).latched.eng.meetsWindow s.cfg = false) →
      exec (tickInstr c .latch) s = .next { s.setChan c (s.chan c).latched with
        history := if (s.chan c).irq then .irq c false :: s.history else s.history } := by
    intro c hctrl hoff
    rw [exec_latch_row hr (unconfigured_iff.2 hctrl) (armsOwnWindow_eq_false.2 hoff), setChanIrq_latched]
  exact ⟨hrow .ch1, hrow .ch2⟩

/-- Settles O20: the row is the SIGNAL of a Complete channel, and only the rise of a false line is recorded. -/
theorem signalAssertsTheLine : Obligations.SignalAssertsTheLine := by
  intro s hr
  have hrow : ∀ c, (s.chan c).eng.ctrl = true → (s.chan c).eng.size ≤ (s.chan c).offset →
      exec (tickInstr c .signal) s = .next { s.setChan c (s.chan c).signalled with
        history := if (s.chan c).irq then s.history else .irq c true :: s.history } := by
    intro c hctrl hsize
    rw [exec_signal_row hr (complete_iff_size_le.2 ⟨hctrl, hsize⟩), setChanIrq_signalled]
  exact ⟨hrow .ch1, hrow .ch2⟩

/-- An Active channel's evaluation keeps off the window where its configuration and its next two accesses do. -/
theorem stepClear_of_active {s : State} {c : Chan} (ha : (s.chan c).active = true)
    (hmeets : (s.chan c).eng.meetsWindow s.cfg = false) (hread : touchesWindow s.cfg (s.chan c).readAddr = false)
    (hwrite : touchesWindow s.cfg (s.chan c).writeAddr = false) : s.stepClear c :=
  ⟨fun _ => ⟨hmeets, hread, hwrite⟩, fun hu => absurd hu (Bool.eq_false_iff.1 (not_unconfigured_of_active ha))⟩

/-- The STEP of an Active channel clear of the window relays one word and advances the offset (41_transfer_engine.md R144,
R145). -/
theorem exec_step_row_relays {s : State} {c : Chan} (hr : s.inReset = false) (ha : (s.chan c).active = true)
    (hclear : s.stepClear c) :
    ∃ t d, exec (tickInstr c .step) s = .next t ∧
      t.chan c = (s.chan c).advanced ∧ (∀ c', c' ≠ c → t.chan c' = s.chan c') ∧
      t.inReset = s.inReset ∧ t.cfg = s.cfg ∧ t.inputs = s.inputs ∧
      t.history = .upWrite c (s.chan c).writeAddr d :: .upRead c (s.chan c).readAddr d :: s.history := by
  obtain ⟨t, ht⟩ := evalChannel_answers_iff.2 hclear
  obtain ⟨hself, hother, hreset, hcfg, hinputs⟩ := evalChannel_regs ht
  rw [evalChannel_active ha] at ht
  exact ⟨t, _, (exec_step_row hr ha).trans ht, hself.trans (evaluated_of_active ha), hother, hreset, hcfg, hinputs,
    stepOp_history ht⟩

/-- Settles O18: the row is the STEP of an Active channel; its two accesses and its configuration keep off the window. -/
theorem stepRelaysOneWord : Obligations.StepRelaysOneWord := by
  intro s hr
  constructor
  · intro hctrl hlt hmeets hread hwrite
    have ha : (s.chan .ch1).active = true := active_iff.2 ⟨hctrl, hlt⟩
    obtain ⟨t, d, hexec, hself, hother, hrest⟩ :=
      exec_step_row_relays hr ha (stepClear_of_active ha hmeets hread hwrite)
    exact ⟨t, d, hexec, hself, hother .ch2 nofun, hrest⟩
  · intro hctrl hlt hmeets hread hwrite
    have ha : (s.chan .ch2).active = true := active_iff.2 ⟨hctrl, hlt⟩
    obtain ⟨t, d, hexec, hself, hother, hrest⟩ :=
      exec_step_row_relays hr ha (stepClear_of_active ha hmeets hread hwrite)
    exact ⟨t, d, hexec, hself, hother .ch1 nofun, hrest⟩

/-! ### A tick -/

/-- Settles O26: a tick evaluates nothing in reset. -/
theorem tickInResetChangesNothing : Obligations.TickInResetChangesNothing :=
  fun _ hr => execTick_eq_next.2 (.inl ⟨hr, rfl⟩)

/-- Outside reset the row a channel's selector decodes to is the channel's evaluation (30_encoding.md R87, R93). -/
theorem exec_decode_sel {s : State} (hr : s.inReset = false) (c : Chan) :
    exec (decode s.cfg (.select c (s.chan c).sel)) s = evalChannel c s :=
  exec_selected_row hr rfl

/-- Settles O27: both rows are evaluations, the second one outside reset as well, since channel 1's leaves `IN_RESET`. -/
theorem tickIsTheTwoSelectedRows : Obligations.TickIsTheTwoSelectedRows := by
  intro s hr
  rw [exec_tick_of_not_inReset hr, ← chan_ch1, exec_decode_sel hr .ch1]
  cases he : evalChannel .ch1 s with
  | next u =>
    obtain ⟨-, -, hur, -⟩ := evalChannel_regs he
    exact (exec_decode_sel (hur.trans hr) .ch2).symm
  | fault r => rfl
  | refused r => rfl

/-- A tick that keeps off the window answers a state: channel 1's evaluation leaves channel 2 as it finds it. -/
theorem exec_tick_answers {s : State} (hr : s.inReset = false) (h : ∀ c, s.stepClear c) :
    ∃ t, exec .tick s = .next t := by
  obtain ⟨u, hu⟩ := evalChannel_answers_iff.2 (h .ch1)
  obtain ⟨-, hother, -, hcfg, -⟩ := evalChannel_regs hu
  obtain ⟨t, ht⟩ := evalChannel_answers_iff.2 ((stepClear_congr (hother .ch2 nofun) hcfg).2 (h .ch2))
  exact ⟨t, execTick_eq_next.2 (.inr ⟨hr, u, hu, ht⟩)⟩

theorem exec_tick_inputs {s t : State} (h : exec .tick s = .next t) : t.inputs = s.inputs := by
  obtain ⟨-, rfl⟩ | ⟨-, u, h1, h2⟩ := execTick_eq_next.1 h
  · rfl
  · obtain ⟨-, -, -, -, hu⟩ := evalChannel_regs h1
    obtain ⟨-, -, -, -, ht⟩ := evalChannel_regs h2
    exact ht.trans hu

/-- A tick outside reset evaluates every channel from that channel's own registers (41_transfer_engine.md R154). -/
theorem exec_tick_chan {s t : State} (hr : s.inReset = false) (h : exec .tick s = .next t) (c : Chan) :
    t.chan c = (s.chan c).evaluated := by
  rw [(execTick_regs h).1 c, hr]
  rfl

theorem exec_tick_inReset {s t : State} (h : exec .tick s = .next t) : t.inReset = s.inReset := by
  obtain ⟨-, hr, -⟩ := execTick_regs h
  exact hr

/-- Settles O28: both evaluations answer, and each reads its own channel alone. -/
theorem tickCompletes : Obligations.TickCompletes := by
  intro s hr h1 h2
  obtain ⟨t, ht⟩ := exec_tick_answers hr (Chan.rec h1 h2)
  obtain ⟨-, htr, hcfg⟩ := execTick_regs ht
  exact ⟨t, ht, exec_tick_chan hr ht .ch1, exec_tick_chan hr ht .ch2, htr.trans hr, hcfg, exec_tick_inputs ht⟩

/-! ### The logical state after each evaluation -/

section
variable {ch : Channel}

theorem latched_unconfigured_iff : ch.latched.unconfigured = true ↔ ch.win.control = 0 := by
  simp [unconfigured_iff, nonzero]

theorem latched_active_iff : ch.latched.active = true ↔ ch.win.control ≠ 0 ∧ ch.win.size ≠ 0 := by
  simp [active_iff, nonzero, BitVec.pos_iff_ne_zero]

theorem latched_complete_iff : ch.latched.complete = true ↔ ch.win.control ≠ 0 ∧ ch.win.size = 0 := by
  simp [complete_iff_size_le, nonzero]

theorem advanced_active_iff (h : ch.active = true) : ch.advanced.active = true ↔ ch.offset + 4 < ch.eng.size := by
  simp [active_iff, (active_iff.1 h).1]

theorem advanced_complete_iff (h : ch.active = true) :
    ch.advanced.complete = true ↔ ¬ ch.offset + 4 < ch.eng.size := by
  simp [complete_iff_size_le, (active_iff.1 h).1]

theorem signalled_unconfigured_iff : ch.signalled.unconfigured = true ↔ ch.win.control = 0 := by
  simp [unconfigured_iff, nonzero]

theorem signalled_complete_iff (h : ch.complete = true) : ch.signalled.complete = true ↔ ch.win.control ≠ 0 := by
  simp [complete_iff_size_le, nonzero, (complete_iff_size_le.1 h).2]

/-- The line of an Active channel that meets the invariant is false (10_state.md R38). -/
theorem irq_of_active (hinv : ch.Inv) (ha : ch.active = true) : ch.irq = false := by
  obtain ⟨-, -, hirq⟩ := hinv
  obtain ⟨-, hlt⟩ := active_iff.1 ha
  exact Bool.eq_false_iff.2 fun h => absurd (hirq h) (BitVec.not_le.2 hlt)

end

/-- Settles O31: rows 1 to 3 are the LATCH of an Unconfigured channel, 4 and 5 the STEP of an Active one, 6 and 7 the SIGNAL
of a Complete one. -/
theorem channelTransitionTable : Obligations.ChannelTransitionTable := by
  intro s t c hr hinv h ch ch'
  have hch : ch' = ch.evaluated := exec_tick_chan hr h c
  have hlatch (hu : ch.unconfigured = true) : ch' = ch.latched := hch.trans (evaluated_of_unconfigured hu)
  have hstep (ha : ch.active = true) : ch' = ch.advanced := hch.trans (evaluated_of_active ha)
  have hsignal (hc : ch.complete = true) : ch' = ch.signalled := hch.trans (evaluated_of_complete hc)
  have hirq (ha : ch.active = true) : ch.irq = false := irq_of_active hinv ha
  refine ⟨fun hu h0 => ?_, fun hu hn hz => ?_, fun hu hn hz => ?_, fun ha hlt => ?_, fun ha hlt => ?_,
    fun hc hn => ?_, fun hc h0 => ?_⟩
  · rw [hlatch hu]
    exact ⟨latched_unconfigured_iff.2 h0, rfl, rfl⟩
  · rw [hlatch hu]
    exact ⟨latched_active_iff.2 ⟨hn, hz⟩, rfl, rfl⟩
  · rw [hlatch hu]
    exact ⟨latched_complete_iff.2 ⟨hn, hz⟩, rfl, rfl⟩
  · rw [hstep ha]
    exact ⟨(advanced_active_iff ha).2 hlt, hirq ha, rfl⟩
  · rw [hstep ha]
    exact ⟨(advanced_complete_iff ha).2 hlt, hirq ha, rfl⟩
  · rw [hsignal hc]
    exact ⟨(signalled_complete_iff hc).2 hn, rfl, rfl⟩
  · rw [hsignal hc]
    exact ⟨signalled_unconfigured_iff.2 h0, rfl, rfl⟩

/-! ### The upstream addresses of a channel -/

/-- The addresses of the upstream transactions of one evaluation, newest first: an Active channel's pair, none otherwise. -/
def Channel.pairAddrs (ch : Channel) : List (Bool × Word) :=
  if ch.active then [(true, ch.writeAddr), (false, ch.readAddr)] else []

theorem pairAddrs_of_active {ch : Channel} (h : ch.active = true) :
    ch.pairAddrs = [(true, ch.writeAddr), (false, ch.readAddr)] :=
  if_pos h

theorem pairAddrs_of_not_active {ch : Channel} (h : ch.active = false) : ch.pairAddrs = [] :=
  if_neg (Bool.eq_false_iff.1 h)

@[simp] theorem upAddrs_irqEvents (c c' : Chan) (before after : Bool) (es : List Event) :
    upAddrs c (irqEvents c' before after ++ es) = upAddrs c es := by
  unfold irqEvents
  split <;> rfl

/-- An evaluation adds its own channel's pair to the upstream transactions and none of the other channel's. -/
theorem evalChannel_upAddrs {c' : Chan} {s t : State} (h : evalChannel c' s = .next t) (c : Chan) :
    upAddrs c t.history = (if c' = c then (s.chan c).pairAddrs else []) ++ upAddrs c s.history := by
  cases ha : (s.chan c').active
  · obtain ⟨-, rfl⟩ := (evalChannel_idle_eq_next ha).1 h
    split
    next hc => simp [← hc, pairAddrs_of_not_active ha]
    next => simp
  · rw [evalChannel_active ha] at h
    rw [stepOp_history h]
    split
    next hc => simp [upAddrs, ← hc, pairAddrs_of_active ha]
    next hc => simp [upAddrs, hc]

/-- A tick outside reset adds the pair of each channel that is Active as the tick begins. -/
theorem exec_tick_upAddrs {s t : State} (hr : s.inReset = false) (h : exec .tick s = .next t) (c : Chan) :
    upAddrs c t.history = (s.chan c).pairAddrs ++ upAddrs c s.history := by
  rw [exec_tick_of_not_inReset hr, andThen_eq_next] at h
  obtain ⟨u, h1, h2⟩ := h
  obtain ⟨-, hother, -⟩ := evalChannel_regs h1
  rw [evalChannel_upAddrs h2, evalChannel_upAddrs h1]
  cases c with
  | ch1 => simp
  | ch2 => simp [← hother .ch2 nofun]

/-! ### A channel that is Active, and one with nothing to transfer -/

/-- Outside reset an Active channel is reached by reset, by the tick and by its own STEP alone (41_transfer_engine.md
R155). -/
theorem afterInstr_of_active {ch : Channel} (h : ch.active = true) (c : Chan) (i : Instr) :
    ch.afterInstr c false i =
      if i = .resetAssert then Channel.reset
      else if i = .tick ∨ i = tickInstr c .step then ch.advanced else ch := by
  have hsel : decodeSel ch.sel = .step := by simp [decodeSel_sel, not_unconfigured_of_active h, h]
  simp [Channel.afterInstr, hsel, h, evaluated_of_active h]

/-- The tick and an Active channel's own STEP issue that channel's pair. -/
theorem upAddrs_of_active_runs {i : Instr} {s t : State} {c : Chan} (hr : s.inReset = false)
    (ha : (s.chan c).active = true) (h : exec i s = .next t) (hruns : i = .tick ∨ i = tickInstr c .step) :
    upAddrs c t.history = (s.chan c).pairAddrs ++ upAddrs c s.history := by
  obtain rfl | rfl := hruns
  · exact exec_tick_upAddrs hr h c
  · rw [exec_selected_row hr (selected_of_active ha)] at h
    simpa using evalChannel_upAddrs h c

/-- Settles O41: reset aside, an operation advances an Active channel or leaves it. -/
theorem onlyResetStopsAnActiveChannel : Obligations.OnlyResetStopsAnActiveChannel := by
  intro i s t c hr ha h runs
  obtain ⟨hchan, -, -⟩ := exec_regs h
  have hafter : t.chan c = if i = .resetAssert then Channel.reset
      else if runs then (s.chan c).advanced else s.chan c := by
    rw [hchan, hr, afterInstr_of_active ha]
  refine ⟨fun hi => ?_, fun hi => ?_, fun hruns => ⟨?_, ?_⟩, fun hruns hi => ?_⟩
  · rw [hafter, if_pos hi]
    rfl
  · rw [hafter, if_neg hi]
    split <;> exact ⟨rfl, rfl, rfl⟩
  · have hi : i ≠ .resetAssert := by
      rintro rfl
      exact absurd hruns (by cases c <;> decide)
    rw [hafter, if_neg hi, if_pos hruns, advanced_offset]
  · rw [upAddrs_of_active_runs hr ha h hruns, pairAddrs_of_active ha]
    rfl
  · rw [hafter, if_neg hi, if_neg hruns]

/-- Settles O43: the first tick is the LATCH, which finds SIZE 0, the second the SIGNAL; neither issues a pair. -/
theorem zeroSizeTransferIssuesNothing : Obligations.ZeroSizeTransferIssuesNothing := by
  intro s t u c hr hu hcontrol hsize h1 h2
  have htr : t.inReset = false := (exec_tick_inReset h1).trans hr
  have ht : t.chan c = (s.chan c).latched := (exec_tick_chan hr h1 c).trans (evaluated_of_unconfigured hu)
  have hcomplete : (t.chan c).complete = true := by rw [ht, latched_complete_iff]; exact ⟨hcontrol, hsize⟩
  refine ⟨hcomplete, by rw [ht, latched_irq], ?_, ?_⟩
  · rw [exec_tick_chan htr h2, evaluated_of_complete hcomplete, signalled_irq]
  · rw [exec_tick_upAddrs htr h2, exec_tick_upAddrs hr h1, pairAddrs_of_not_active (complete_iff.1 hcomplete).2,
      pairAddrs_of_not_active (not_active_of_unconfigured hu)]
    rfl

end Sys2Proof.Machine
end

section
/-! PROOFS. Whole transfers (41_transfer_engine.md R149, R150, R153, R160): a channel's registers and its upstream addresses
after any number of ticks, in closed form. -/

namespace Sys2Proof.Machine

/-! ### Runs of ticks -/

theorem ticks_succ_eq_next {k : Nat} {s t : State} :
    ticks (k + 1) s = .next t ↔ ∃ u, exec .tick s = .next u ∧ ticks k u = .next t :=
  andThen_eq_next

/-- A run of ticks taken apart at its last tick. -/
theorem ticks_succ_eq_next_last {k : Nat} {s t : State} :
    ticks (k + 1) s = .next t ↔ ∃ u, ticks k s = .next u ∧ exec .tick u = .next t := by
  induction k generalizing s with
  | zero => simp [ticks, andThen_eq_next]
  | succ k ih =>
    simp only [ticks_succ_eq_next (k := k + 1), ih, ticks_succ_eq_next (k := k)]
    constructor
    · rintro ⟨v, hv, u, hu, ht⟩
      exact ⟨u, ⟨v, hv, hu⟩, ht⟩
    · rintro ⟨u, ⟨v, hv, hu⟩, ht⟩
      exact ⟨v, hv, u, hu, ht⟩

/-! ### A transfer's registers in closed form -/

/-- The words of a transfer, SIZE rounded up (41_transfer_engine.md R150). -/
def Engine.words (e : Engine) : Nat := (e.size.toNat + 3) / 4

theorem length_eq_words (e : Engine) : e.length = 4 * e.words :=
  Nat.mul_comm ..

theorem words_lt {e : Engine} (h : e.size ≤ 0xFFFFFFFC) : 4 * e.words < 2 ^ 32 := by
  have hsize : e.size.toNat ≤ 0xFFFFFFFC := h
  unfold Engine.words
  omega

/-- An armed channel that stands at offset 0, `k` ticks later: a word a tick up to the transfer's words, then the line. -/
def Channel.afterTicks (ch : Channel) (k : Nat) : Channel :=
  { ch with
    offset := BitVec.ofNat 32 (4 * min k ch.eng.words)
    irq := ch.irq || decide (ch.eng.words < k) }

section
variable {ch : Channel}

theorem afterTicks_zero (h : ch.offset = 0) : ch.afterTicks 0 = ch := by
  obtain ⟨win, eng, offset, irq⟩ := ch
  cases h
  simp [Channel.afterTicks]

theorem toNat_afterTicks_offset (hsize : ch.eng.size ≤ 0xFFFFFFFC) (k : Nat) :
    (ch.afterTicks k).offset.toNat = 4 * min k ch.eng.words := by
  have := words_lt hsize
  exact Nat.mod_eq_of_lt (by omega)

/-- The transfer is under way exactly until its words are done. -/
theorem afterTicks_active_iff (hctrl : ch.eng.ctrl = true) (hsize : ch.eng.size ≤ 0xFFFFFFFC) {k : Nat} :
    (ch.afterTicks k).active = true ↔ k < ch.eng.words := by
  have hbelow : 4 * min k ch.eng.words < ch.eng.size.toNat ↔ k < ch.eng.words := by
    unfold Engine.words
    omega
  rw [active_iff, BitVec.lt_def, toNat_afterTicks_offset hsize]
  exact (and_iff_right hctrl).trans hbelow

theorem afterTicks_complete (hctrl : ch.eng.ctrl = true) (hsize : ch.eng.size ≤ 0xFFFFFFFC) {k : Nat}
    (hk : ch.eng.words ≤ k) : (ch.afterTicks k).complete = true := by
  have hun : (ch.afterTicks k).unconfigured = false := congrArg not hctrl
  have hna : (ch.afterTicks k).active = false := by
    rw [Bool.eq_false_iff, Ne, afterTicks_active_iff hctrl hsize]
    omega
  exact complete_iff.2 ⟨hun, hna⟩

/-- One more evaluation: STEP while words are left, then SIGNAL, which keeps the channel armed where CONTROL is nonzero. -/
theorem evaluated_afterTicks (hctrl : ch.eng.ctrl = true) (hsize : ch.eng.size ≤ 0xFFFFFFFC) {k : Nat}
    (hk : k < ch.eng.words ∨ ch.win.control ≠ 0) : (ch.afterTicks k).evaluated = ch.afterTicks (k + 1) := by
  by_cases hlt : k < ch.eng.words
  · have hmin : min k ch.eng.words = k ∧ min (k + 1) ch.eng.words = k + 1 := by omega
    have hline : ¬ ch.eng.words < k ∧ ¬ ch.eng.words < k + 1 := by omega
    rw [evaluated_of_active ((afterTicks_active_iff hctrl hsize).2 hlt)]
    simp [Channel.afterTicks, Channel.advanced, hmin, hline, Nat.mul_add, BitVec.ofNat_add]
  · have hmin : min k ch.eng.words = ch.eng.words ∧ min (k + 1) ch.eng.words = ch.eng.words := by omega
    have hline : ch.eng.words < k + 1 := by omega
    have hcontrol : nonzero ch.win.control = ch.eng.ctrl := by simpa [nonzero, hctrl] using hk.resolve_left hlt
    rw [evaluated_of_complete (afterTicks_complete hctrl hsize (by omega))]
    simp [Channel.afterTicks, Channel.signalled, hmin, hline, hcontrol]

theorem afterTicks_readAddr {k : Nat} (hk : k < ch.eng.words) :
    (ch.afterTicks k).readAddr = ch.eng.source + BitVec.ofNat 32 (4 * k) := by
  simp [Channel.readAddr, Channel.afterTicks, Nat.min_eq_left (Nat.le_of_lt hk)]

theorem afterTicks_writeAddr {k : Nat} (hk : k < ch.eng.words) :
    (ch.afterTicks k).writeAddr = ch.eng.target + BitVec.ofNat 32 (4 * k) := by
  simp [Channel.writeAddr, Channel.afterTicks, Nat.min_eq_left (Nat.le_of_lt hk)]

/-- The tick after `k` ticks issues pair `k` of the transfer, or none once the words are done. -/
theorem pairAddrs_afterTicks (hctrl : ch.eng.ctrl = true) (hsize : ch.eng.size ≤ 0xFFFFFFFC) (k : Nat) :
    (ch.afterTicks k).pairAddrs ++ transferAddrs ch.eng.source ch.eng.target (min k ch.eng.words) =
      transferAddrs ch.eng.source ch.eng.target (min (k + 1) ch.eng.words) := by
  have hactive := afterTicks_active_iff hctrl hsize (k := k)
  by_cases hlt : k < ch.eng.words
  · have hmin : min k ch.eng.words = k ∧ min (k + 1) ch.eng.words = k + 1 := by omega
    rw [pairAddrs_of_active (hactive.2 hlt), afterTicks_readAddr hlt, afterTicks_writeAddr hlt, hmin.1, hmin.2]
    rfl
  · have hmin : min k ch.eng.words = ch.eng.words ∧ min (k + 1) ch.eng.words = ch.eng.words := by omega
    rw [pairAddrs_of_not_active (Bool.eq_false_iff.2 (mt hactive.1 hlt)), hmin.1, hmin.2]
    rfl

end

/-! ### Ticks of an armed channel -/

/-- `k` ticks of an armed channel that stands at offset 0, whatever the other channel and the platform do: its registers,
and the upstream transactions it has issued. -/
theorem ticks_of_armed {s t : State} {c : Chan} {k : Nat} (hr : s.inReset = false) (hctrl : (s.chan c).eng.ctrl = true)
    (hoffset : (s.chan c).offset = 0) (hsize : (s.chan c).eng.size ≤ 0xFFFFFFFC) (hcontrol : (s.chan c).win.control ≠ 0)
    (h : ticks k s = .next t) :
    t.inReset = false ∧ t.chan c = (s.chan c).afterTicks k ∧
    upAddrs c t.history =
      transferAddrs (s.chan c).eng.source (s.chan c).eng.target (min k (s.chan c).eng.words) ++ upAddrs c s.history := by
  induction k generalizing t with
  | zero =>
    cases h
    simp [hr, afterTicks_zero hoffset, transferAddrs]
  | succ k ih =>
    obtain ⟨u, hu, ht⟩ := ticks_succ_eq_next_last.1 h
    obtain ⟨hur, huchan, huaddrs⟩ := ih hu
    refine ⟨(exec_tick_inReset ht).trans hur, ?_, ?_⟩
    · rw [exec_tick_chan hur ht, huchan, evaluated_afterTicks hctrl hsize (.inr hcontrol)]
    · rw [exec_tick_upAddrs hur ht, huchan, huaddrs, ← List.append_assoc, pairAddrs_afterTicks hctrl hsize]

/-- The same of a channel armed in its window: the first tick is the LATCH, which issues nothing. -/
theorem ticks_of_waiting {s t : State} {c : Chan} {k : Nat} (hr : s.inReset = false)
    (hu : (s.chan c).unconfigured = true) (hcontrol : (s.chan c).win.control ≠ 0)
    (hsize : (s.chan c).win.size ≤ 0xFFFFFFFC) (h : ticks (k + 1) s = .next t) :
    t.chan c = (s.chan c).latched.afterTicks k ∧
    upAddrs c t.history =
      transferAddrs (s.chan c).win.source (s.chan c).win.target (min k (s.chan c).latched.eng.words) ++
        upAddrs c s.history := by
  obtain ⟨u, h1, hrest⟩ := ticks_succ_eq_next.1 h
  have hlatched : u.chan c = (s.chan c).latched := (exec_tick_chan hr h1 c).trans (evaluated_of_unconfigured hu)
  have haddrs : upAddrs c u.history = upAddrs c s.history := by
    rw [exec_tick_upAddrs hr h1, pairAddrs_of_not_active (not_active_of_unconfigured hu), List.nil_append]
  obtain ⟨-, hchan, htraffic⟩ := ticks_of_armed (c := c) ((exec_tick_inReset h1).trans hr)
    (by simpa [hlatched, nonzero] using hcontrol) (by rw [hlatched, latched_offset]) (by rwa [hlatched])
    (by rwa [hlatched, latched_win]) hrest
  rw [hlatched] at hchan htraffic
  exact ⟨hchan, haddrs ▸ htraffic⟩

/-- The line of a latched transfer is true from two ticks after its words on, the LATCH's and the SIGNAL's. -/
theorem latched_afterTicks_irq (ch : Channel) (k : Nat) :
    (ch.latched.afterTicks k).irq = true ↔ ch.latched.eng.words + 2 ≤ k + 1 := by
  show (false || decide (ch.latched.eng.words < k)) = true ↔ _
  rw [Bool.false_or, decide_eq_true_iff]
  omega

/-- Settles O53: the first tick is the LATCH, and the others are the closed form's. -/
theorem transferOfAnySizeRoundsUp : Obligations.TransferOfAnySizeRoundsUp := by
  intro s t c k hr hu hcontrol hsize hk h words
  obtain ⟨j, rfl⟩ : ∃ j, k = j + 1 := ⟨k - 1, by omega⟩
  obtain ⟨hchan, haddrs⟩ := ticks_of_waiting hr hu hcontrol hsize h
  refine ⟨?_, ?_, haddrs⟩
  · rw [hchan]
    exact toNat_afterTicks_offset hsize j
  · rw [hchan]
    exact latched_afterTicks_irq (s.chan c) j

theorem size_le_of_mod_four {v : Word} (h : v.toNat % 4 = 0) : v ≤ 0xFFFFFFFC := by
  have hv : v.toNat ≤ 0xFFFFFFFC := by omega
  exact hv

/-- Settles O44: a SIZE that is a multiple of 4 is four times its words. -/
theorem tickCountsOfOneTransfer : Obligations.TickCountsOfOneTransfer := by
  intro s t c k hr hu hcontrol hmul hk h
  have hsize := size_le_of_mod_four hmul
  obtain ⟨hoffset, hirq, -⟩ := transferOfAnySizeRoundsUp s t c k hr hu hcontrol hsize hk h
  refine ⟨hoffset.trans (by omega), hirq.trans (by omega), ?_⟩
  obtain ⟨j, rfl⟩ : ∃ j, k = j + 1 := ⟨k - 1, by omega⟩
  obtain ⟨hchan, -⟩ := ticks_of_waiting hr hu hcontrol hsize h
  rw [hchan]
  show nonzero (s.chan c).win.control = true
  simpa [nonzero] using hcontrol

/-- Settles O45: an Active channel at offset 0 is armed, and the closed form gives its pairs. -/
theorem transferIssuesItsPairsInOrder : Obligations.TransferIssuesItsPairsInOrder := by
  intro s t c k hr ha hoffset hmul hcontrol h
  obtain ⟨hctrl, -⟩ := active_iff.1 ha
  obtain ⟨-, -, haddrs⟩ := ticks_of_armed hr hctrl hoffset (size_le_of_mod_four hmul) hcontrol h
  have hwords : (s.chan c).eng.words = (s.chan c).eng.size.toNat / 4 := by
    unfold Engine.words
    omega
  rwa [hwords] at haddrs

end Sys2Proof.Machine
end

section
/-! PROOFS. What a whole transfer copies (41_transfer_engine.md R160, 20_memory.md R70): memory after a tick in the reference
environment, and the source range at the target word by word. -/

namespace Sys2Proof.Machine

/-! ### Memory after a tick in the reference environment -/

/-- Memory after one evaluation in the reference environment: an Active channel copies four bytes, no other channel touches
memory. -/
def Channel.relay (ch : Channel) (m : Memory) : Memory :=
  if ch.active then m.writeQuad ch.writeAddr (m.readQuad ch.readAddr) else m

theorem relay_of_active {ch : Channel} (h : ch.active = true) (m : Memory) :
    ch.relay m = m.writeQuad ch.writeAddr (m.readQuad ch.readAddr) :=
  if_pos h

theorem relay_of_not_active {ch : Channel} (h : ch.active = false) (m : Memory) : ch.relay m = m :=
  if_neg (Bool.eq_false_iff.1 h)

theorem evalChannel_of_calm {c : Chan} {s t : State} (hs : s.calm) (h : evalChannel c s = .next t) :
    t.calm ∧ t.mem = (s.chan c).relay s.mem := by
  cases ha : (s.chan c).active
  · obtain ⟨-, rfl⟩ := (evalChannel_idle_eq_next ha).1 h
    rw [relay_of_not_active ha, setChanIrq_mem]
    exact ⟨by simpa [State.calm] using hs, rfl⟩
  · rw [evalChannel_active ha] at h
    rw [relay_of_active ha]
    exact stepOp_of_calm hs h

/-- A tick in the reference environment: channel 1's copy, then channel 2's. -/
theorem exec_tick_of_calm {s t : State} (hr : s.inReset = false) (hs : s.calm) (h : exec .tick s = .next t) :
    t.calm ∧ t.mem = s.ch2.relay (s.ch1.relay s.mem) := by
  rw [exec_tick_of_not_inReset hr, andThen_eq_next] at h
  obtain ⟨u, h1, h2⟩ := h
  obtain ⟨-, hother, -⟩ := evalChannel_regs h1
  obtain ⟨hucalm, humem⟩ := evalChannel_of_calm hs h1
  obtain ⟨htcalm, htmem⟩ := evalChannel_of_calm hucalm h2
  refine ⟨htcalm, ?_⟩
  rw [htmem, humem, hother .ch2 nofun]
  rfl

/-- With the other channel not Active a tick in the reference environment is one channel's copy. -/
theorem exec_tick_mem_of_other_idle {s t : State} {c c' : Chan} (hne : c' ≠ c) (hr : s.inReset = false) (hs : s.calm)
    (hidle : (s.chan c').active = false) (h : exec .tick s = .next t) : t.mem = (s.chan c).relay s.mem := by
  obtain ⟨-, hmem⟩ := exec_tick_of_calm hr hs h
  rw [hmem]
  cases c <;> cases c'
  · exact absurd rfl hne
  · exact relay_of_not_active hidle _
  · exact congrArg s.ch2.relay (relay_of_not_active hidle _)
  · exact absurd rfl hne

/-! ### A channel that stays Unconfigured -/

/-- Unconfigured with CONTROL 0: each evaluation is a LATCH that arms nothing. -/
def Channel.resting (ch : Channel) : Prop := ch.unconfigured = true ∧ ch.win.control = 0

theorem stepClear_of_resting {s : State} {c : Chan} (h : (s.chan c).resting) : s.stepClear c := by
  obtain ⟨hu, hzero⟩ := h
  have hna := not_active_of_unconfigured hu
  exact ⟨fun ha => absurd (ha.symm.trans hna) nofun, fun _ hcontrol => absurd hzero hcontrol⟩

theorem evaluated_resting {ch : Channel} (h : ch.resting) : ch.evaluated.resting := by
  obtain ⟨hu, hzero⟩ := h
  rw [evaluated_of_unconfigured hu]
  exact ⟨latched_unconfigured_iff.2 hzero, hzero⟩

/-! ### A range copied word by word -/

theorem add_ofNat_add (a : Word) (n k : Nat) : a + BitVec.ofNat 32 n + BitVec.ofNat 32 k = a + BitVec.ofNat 32 (n + k) := by
  rw [BitVec.ofNat_add, BitVec.add_assoc]

theorem add_ofNat_inj {a : Word} {i j : Nat} (hi : i < 2 ^ 32) (hj : j < 2 ^ 32) :
    a + BitVec.ofNat 32 i = a + BitVec.ofNat 32 j ↔ i = j := by
  rw [BitVec.add_right_inj, ← BitVec.toNat_inj, BitVec.toNat_ofNat, BitVec.toNat_ofNat, Nat.mod_eq_of_lt hi,
    Nat.mod_eq_of_lt hj]

theorem forall_lt_four_iff {P : Nat → Prop} : (∀ k, k < 4 → P k) ↔ P 0 ∧ P 1 ∧ P 2 ∧ P 3 := by
  constructor
  · exact fun h => ⟨h 0 (by decide), h 1 (by decide), h 2 (by decide), h 3 (by decide)⟩
  · rintro ⟨h0, h1, h2, h3⟩ k hk
    match k, hk with
    | 0, _ => exact h0
    | 1, _ => exact h1
    | 2, _ => exact h2
    | 3, _ => exact h3

theorem inQuad_iff {a x : Word} : inQuad a x ↔ ∃ k, k < 4 ∧ x = a + BitVec.ofNat 32 k := by
  constructor
  · rintro (h | h | h | h)
    · exact ⟨0, by decide, h.trans (BitVec.add_zero a).symm⟩
    · exact ⟨1, by decide, h⟩
    · exact ⟨2, by decide, h⟩
    · exact ⟨3, by decide, h⟩
  · rintro ⟨k, hk, rfl⟩
    have hall : ∀ k, k < 4 → inQuad a (a + BitVec.ofNat 32 k) :=
      forall_lt_four_iff.2 ⟨.inl (BitVec.add_zero a), .inr (.inl rfl), .inr (.inr (.inl rfl)), .inr (.inr (.inr rfl))⟩
    exact hall k hk

/-- Byte `k` of the quad at an address is the memory's byte `k` addresses on. -/
theorem readQuad_eq_iff {m m' : Memory} {a a' : Word} :
    m'.readQuad a' = m.readQuad a ↔
      ∀ k, k < 4 → m'.byte (a' + BitVec.ofNat 32 k) = m.byte (a + BitVec.ofNat 32 k) := by
  rw [forall_lt_four_iff, Memory.readQuad, Memory.readQuad, Quad.mk.injEq]
  have h0 : ∀ b : Word, b + BitVec.ofNat 32 0 = b := BitVec.add_zero
  rw [h0, h0]
  exact Iff.rfl

/-- `m'` is `m` with the `n` bytes from `src` on copied to `tgt` and every other byte as it was. -/
def Memory.copied (m m' : Memory) (src tgt : Word) (n : Nat) : Prop :=
  (∀ i, i < n → m'.byte (tgt + BitVec.ofNat 32 i) = m.byte (src + BitVec.ofNat 32 i)) ∧
  ∀ x, (∀ i, i < n → x ≠ tgt + BitVec.ofNat 32 i) → m'.byte x = m.byte x

theorem copied_zero (m : Memory) (src tgt : Word) : m.copied m src tgt 0 :=
  ⟨nofun, fun _ _ => rfl⟩

/-- One more word copied. The source word still holds its first bytes, since the ranges do not overlap, and the write leaves
the words copied before, since the target range is shorter than the address space. -/
theorem copied_add_four {m m' : Memory} {src tgt : Word} {n : Nat} (hwf : m'.wf = true) (hn : n + 4 ≤ 2 ^ 32)
    (hdisjoint : ∀ i j, i < n + 4 → j < n + 4 → src + BitVec.ofNat 32 i ≠ tgt + BitVec.ofNat 32 j)
    (h : m.copied m' src tgt n) :
    m.copied (m'.writeQuad (tgt + BitVec.ofNat 32 n) (m'.readQuad (src + BitVec.ofNat 32 n))) src tgt (n + 4) := by
  obtain ⟨hdone, hframe⟩ := h
  have hsource : m'.readQuad (src + BitVec.ofNat 32 n) = m.readQuad (src + BitVec.ofNat 32 n) := by
    refine readQuad_eq_iff.2 fun k hk => ?_
    rw [add_ofNat_add]
    exact hframe _ fun i hi => hdisjoint _ _ (by omega) (by omega)
  have hword := readQuad_eq_iff.1 ((readQuad_writeQuad hwf (tgt + BitVec.ofNat 32 n) _).trans hsource)
  refine ⟨fun i hi => ?_, fun x hx => ?_⟩
  · by_cases hlt : i < n
    · have hout : ¬ inQuad (tgt + BitVec.ofNat 32 n) (tgt + BitVec.ofNat 32 i) := by
        rw [inQuad_iff]
        rintro ⟨k, hk, heq⟩
        rw [add_ofNat_add, add_ofNat_inj (by omega) (by omega)] at heq
        omega
      rw [byte_writeQuad_of_not_inQuad hwf _ hout, hdone i hlt]
    · obtain ⟨k, rfl⟩ : ∃ k, i = n + k := ⟨i - n, by omega⟩
      rw [← add_ofNat_add, ← add_ofNat_add]
      exact hword k (by omega)
  · have hout : ¬ inQuad (tgt + BitVec.ofNat 32 n) x := by
      rw [inQuad_iff]
      rintro ⟨k, hk, rfl⟩
      exact hx (n + k) (by omega) (add_ofNat_add _ _ _)
    rw [byte_writeQuad_of_not_inQuad hwf _ hout]
    exact hframe x fun i hi => hx i (by omega)

/-! ### A transfer whose ranges keep off the window -/

/-- Every byte address of the transfer's two ranges lies outside the block's own window (20_memory.md R68). -/
def Engine.rangesClear (cfg : Config) (e : Engine) : Prop :=
  ∀ i, i < 4 * e.words →
    inWindow cfg (e.source + BitVec.ofNat 32 i) = false ∧ inWindow cfg (e.target + BitVec.ofNat 32 i) = false

theorem meetsWindow_of_rangesClear {cfg : Config} {e : Engine} (h : e.rangesClear cfg) : e.meetsWindow cfg = false := by
  refine Bool.eq_false_iff.2 fun hmeets => ?_
  obtain ⟨-, k, hk, hin⟩ := (refusedConfigurations cfg e).1 hmeets
  obtain ⟨hsrc, htgt⟩ := h k hk
  rw [Bool.eq_false_iff, Ne, inWindow_iff] at hsrc htgt
  exact hin.elim hsrc htgt

theorem touchesWindow_eq_false {cfg : Config} {a : Word}
    (h : ∀ k, k < 4 → inWindow cfg (a + BitVec.ofNat 32 k) = false) : touchesWindow cfg a = false := by
  obtain ⟨h0, h1, h2, h3⟩ := forall_lt_four_iff.1 h
  rw [BitVec.add_zero] at h0
  rw [touchesWindow, h0, Bool.false_or]
  exact Bool.or_eq_false_iff.2 ⟨Bool.or_eq_false_iff.2 ⟨h1, h2⟩, h3⟩

/-- Each word of such a transfer is relayed without being refused. -/
theorem stepClear_of_rangesClear {s : State} {c : Chan} {ch : Channel} {k : Nat} (hchan : s.chan c = ch.afterTicks k)
    (hctrl : ch.eng.ctrl = true) (hsize : ch.eng.size ≤ 0xFFFFFFFC) (hk : k < ch.eng.words)
    (hclear : ch.eng.rangesClear s.cfg) : s.stepClear c := by
  refine stepClear_of_active ?_ ?_ ?_ ?_ <;> rw [hchan]
  · exact (afterTicks_active_iff hctrl hsize).2 hk
  · exact meetsWindow_of_rangesClear hclear
  · rw [afterTicks_readAddr hk]
    refine touchesWindow_eq_false fun i hi => ?_
    obtain ⟨hsrc, -⟩ := hclear (4 * k + i) (by omega)
    rwa [add_ofNat_add]
  · rw [afterTicks_writeAddr hk]
    refine touchesWindow_eq_false fun i hi => ?_
    obtain ⟨-, htgt⟩ := hclear (4 * k + i) (by omega)
    rwa [add_ofNat_add]

/-! ### The transfer, word by word -/

/-- `t` is `s` after the first `k` words of channel `c`'s transfer, with nothing else at work: the reference environment,
and the other channel `c'` at rest. -/
structure CopiedWords (s : State) (c c' : Chan) (k : Nat) (t : State) : Prop where
  outOfReset : t.inReset = false
  calm : t.calm
  canonical : t.mem.wf = true
  cfg : t.cfg = s.cfg
  chan : t.chan c = (s.chan c).afterTicks k
  other : (t.chan c').resting
  copied : s.mem.copied t.mem (s.chan c).eng.source (s.chan c).eng.target (4 * k)

section
variable {s : State} {c c' : Chan} (hne : c' ≠ c) (hctrl : (s.chan c).eng.ctrl = true)
  (hsize : (s.chan c).eng.size ≤ 0xFFFFFFFC) (hclear : (s.chan c).eng.rangesClear s.cfg)
  (hdisjoint : ∀ i j, i < 4 * (s.chan c).eng.words → j < 4 * (s.chan c).eng.words →
    (s.chan c).eng.source + BitVec.ofNat 32 i ≠ (s.chan c).eng.target + BitVec.ofNat 32 j)
include hne hctrl hsize hclear hdisjoint

/-- While words are left a tick answers, and copies the next one. -/
theorem copiedWords_tick {k : Nat} {t : State} (hk : k < (s.chan c).eng.words) (h : CopiedWords s c c' k t) :
    ∃ u, exec .tick t = .next u ∧ CopiedWords s c c' (k + 1) u := by
  have hword : t.stepClear c := stepClear_of_rangesClear h.chan hctrl hsize hk (by rwa [h.cfg])
  have hall : ∀ d, t.stepClear d := fun d => by
    obtain rfl | rfl : d = c ∨ d = c' := by cases c <;> cases c' <;> cases d <;> simp at hne ⊢
    · exact hword
    · exact stepClear_of_resting h.other
  obtain ⟨u, hu⟩ := exec_tick_answers h.outOfReset hall
  obtain ⟨hcalm, -⟩ := exec_tick_of_calm h.outOfReset h.calm hu
  obtain ⟨-, hr, hcfg⟩ := execTick_regs hu
  obtain ⟨hidle, -⟩ := h.other
  have hmem := exec_tick_mem_of_other_idle hne h.outOfReset h.calm (not_active_of_unconfigured hidle) hu
  rw [h.chan, relay_of_active ((afterTicks_active_iff hctrl hsize).2 hk), afterTicks_readAddr hk,
    afterTicks_writeAddr hk] at hmem
  have hspace := words_lt hsize
  refine ⟨u, hu, hr.trans h.outOfReset, hcalm, exec_mem_wf h.canonical hu, hcfg.trans h.cfg, ?_, ?_, ?_⟩
  · rw [exec_tick_chan h.outOfReset hu, h.chan, evaluated_afterTicks hctrl hsize (.inl hk)]
  · rw [exec_tick_chan h.outOfReset hu]
    exact evaluated_resting h.other
  · rw [hmem]
    exact copied_add_four h.canonical (by omega) (fun i j hi hj => hdisjoint i j (by omega) (by omega)) h.copied

/-- The ticks of a transfer answer, and copy a word each. -/
theorem copiedWords_ticks (h0 : CopiedWords s c c' 0 s) {k : Nat} (hk : k ≤ (s.chan c).eng.words) :
    ∃ t, ticks k s = .next t ∧ CopiedWords s c c' k t := by
  induction k with
  | zero => exact ⟨s, rfl, h0⟩
  | succ k ih =>
    obtain ⟨t, ht, hcopied⟩ := ih (by omega)
    obtain ⟨u, hu, hnext⟩ := copiedWords_tick hne hctrl hsize hclear hdisjoint hk hcopied
    exact ⟨u, ticks_succ_eq_next_last.2 ⟨t, ht, hu⟩, hnext⟩

end

/-- Settles O46: a SIZE that is a multiple of 4 is four times its words, and after that many ticks they are all copied. -/
theorem transferCopiesTheSourceRange : Obligations.TransferCopiesTheSourceRange := by
  intro s c c' hne hwf hcalm hr ha hoffset hmul hun hzero n src tgt hwindow hdisjoint
  obtain ⟨hctrl, -⟩ := active_iff.1 ha
  have hsize := size_le_of_mod_four hmul
  have hwords : (s.chan c).eng.words = n / 4 := by
    unfold Engine.words
    omega
  have hbytes : 4 * (n / 4) = n := by omega
  have h0 : CopiedWords s c c' 0 s :=
    ⟨hr, hcalm, hwf, rfl, (afterTicks_zero hoffset).symm, ⟨hun, hzero⟩, copied_zero _ _ _⟩
  obtain ⟨t, ht, hdone⟩ := copiedWords_ticks hne hctrl hsize (by rwa [Engine.rangesClear, hwords, hbytes])
    (by rwa [hwords, hbytes]) h0 (Nat.le_of_eq hwords.symm)
  obtain ⟨hcopied, hframe⟩ := hdone.copied
  rw [hbytes] at hcopied hframe
  refine ⟨t, ht, ?_, hcopied, hframe⟩
  rw [hdone.chan]
  exact afterTicks_complete hctrl hsize (Nat.le_of_eq hwords)

end Sys2Proof.Machine
end

section
/-! PROOFS. The interrupt lines (42_interrupt_latch.md R171, R172, R174): a channel's line after any one operation, and the
acknowledge. -/

namespace Sys2Proof.Machine

/-! ### A line after one evaluation, and after one operation -/

/-- LATCH makes the line false, SIGNAL makes it true, STEP leaves it (42_interrupt_latch.md R171, R172). -/
theorem evaluated_irq (ch : Channel) :
    ch.evaluated.irq = if ch.unconfigured then false else if ch.complete then true else ch.irq := by
  by_cases hu : ch.unconfigured = true
  · rw [evaluated_of_unconfigured hu, if_pos hu, latched_irq]
  · rw [if_neg hu]
    by_cases hc : ch.complete = true
    · rw [evaluated_of_complete hc, if_pos hc, signalled_irq]
    · have ha : ch.active = true := by simpa [complete_iff, hu] using hc
      rw [evaluated_of_active ha, if_neg hc, advanced_irq]

/-- Reset and the channel's evaluation are all that reaches a line: a register write leaves it. -/
theorem afterInstr_irq (ch : Channel) (c : Chan) (i : Instr) :
    (ch.afterInstr c false i).irq =
      if i = .resetAssert then false
      else if i = .tick ∨ i = tickInstr c (decodeSel ch.sel) then ch.evaluated.irq else ch.irq := by
  unfold Channel.afterInstr
  split
  · rfl
  · rw [if_neg Bool.false_ne_true]
    split
    · rfl
    · split
      · rfl
      · split
        · exact setReg_irq _ _ _
        · rfl

/-! ### Which operations run a channel's LATCH and its SIGNAL -/

/-- Operation `i` performs the LATCH of channel `c`, within a tick or as its row (41_transfer_engine.md R140 to R143). -/
abbrev State.latches (s : State) (c : Chan) (i : Instr) : Prop :=
  s.inReset = false ∧ (s.chan c).unconfigured = true ∧ (i = .tick ∨ i = tickInstr c .latch)

/-- Operation `i` performs the SIGNAL of channel `c`, within a tick or as its row (41_transfer_engine.md R140, R141, R146,
R147). -/
abbrev State.signals (s : State) (c : Chan) (i : Instr) : Prop :=
  s.inReset = false ∧ (s.chan c).complete = true ∧ (i = .tick ∨ i = tickInstr c .signal)

/-- An operation that performs a channel's SIGNAL neither performs its LATCH nor resets it. -/
theorem not_latches_or_reset_of_signals {s : State} {c : Chan} {i : Instr} (h : s.signals c i) :
    ¬ (s.latches c i ∨ i = .resetAssert) := by
  obtain ⟨-, hc, hi⟩ := h
  rintro (⟨-, hu, -⟩ | rfl)
  · obtain ⟨hun, -⟩ := complete_iff.1 hc
    exact Bool.false_ne_true (hun.symm.trans hu)
  · cases c <;> simp [tickInstr] at hi

/-- A channel's line after any operation. In reset only the assertion of reset reaches it; outside reset the channel's
logical state says which of its three evaluations an operation can perform. -/
theorem exec_irq {i : Instr} {s t : State} (h : exec i s = .next t) (c : Chan) :
    (t.chan c).irq =
      if s.latches c i ∨ i = .resetAssert then false else if s.signals c i then true else (s.chan c).irq := by
  obtain ⟨hregs, -, -⟩ := exec_regs h
  have hchan := hregs c
  by_cases hr : s.inReset = true
  · rw [hr, afterInstr_in_reset] at hchan
    rw [hchan]
    by_cases hi : i = .resetAssert
    · simp [hi, Channel.reset]
    · simp [State.latches, State.signals, hr, hi]
  · rw [Bool.eq_false_iff.2 hr] at hchan
    rw [hchan, afterInstr_irq, evaluated_irq, decodeSel_sel]
    by_cases hi : i = .resetAssert
    · simp [hi]
    · by_cases hu : (s.chan c).unconfigured = true
      · simp [State.latches, State.signals, hr, hi, hu, complete_iff]
      · by_cases hc : (s.chan c).complete = true
        · obtain ⟨-, ha⟩ := complete_iff.1 hc
          simp [State.latches, State.signals, hr, hi, hu, hc, ha]
        · simp [State.latches, State.signals, hr, hi, hu, hc]

/-- Settles O40: the line after an operation has the value that LATCH, reset or SIGNAL gives it, or the one it had. -/
theorem linesRiseBySignalAndFallByLatchOrReset : Obligations.LinesRiseBySignalAndFallByLatchOrReset := by
  intro i s t c h latched signalled
  have hirq : (t.chan c).irq = if latched ∨ i = .resetAssert then false else if signalled then true else (s.chan c).irq :=
    exec_irq h c
  refine ⟨fun hfall => ?_, fun hrise => ?_, fun hbefore hafter => ?_, fun hbefore hafter => ?_⟩
  · rw [hirq, if_pos hfall]
  · rw [hirq, if_neg (not_latches_or_reset_of_signals hrise), if_pos hrise]
  · refine Classical.byContradiction fun hfall => ?_
    rw [hirq, if_neg hfall, hbefore, ite_self] at hafter
    cases hafter
  · refine Classical.byContradiction fun hrise => ?_
    rw [hirq, if_neg hrise, hbefore, ite_self] at hafter
    cases hafter

/-! ### The acknowledge -/

/-- A tick outside reset is the SIGNAL of a channel that it finds Complete (41_transfer_engine.md R140, R141). -/
theorem exec_tick_of_complete {s t : State} {c : Chan} (hr : s.inReset = false) (hc : (s.chan c).complete = true)
    (h : exec .tick s = .next t) : t.chan c = (s.chan c).signalled :=
  (exec_tick_chan hr h c).trans (evaluated_of_complete hc)

/-- A tick outside reset is the LATCH of a channel that it finds Unconfigured (41_transfer_engine.md R140, R141). -/
theorem exec_tick_of_unconfigured {s t : State} {c : Chan} (hr : s.inReset = false)
    (hu : (s.chan c).unconfigured = true) (h : exec .tick s = .next t) : t.chan c = (s.chan c).latched :=
  (exec_tick_chan hr h c).trans (evaluated_of_unconfigured hu)

/-- Settles O47: the write is accepted, the first tick is the SIGNAL, which finds CONTROL 0, and the second the LATCH. -/
theorem acknowledgeTakesTwoTicks : Obligations.AcknowledgeTakesTwoTicks := by
  intro s c hr hc _
  obtain ⟨-, ha⟩ := complete_iff.1 hc
  have htchan := regWrite_chan_self hr ha .control 0
  refine ⟨_, exec_wrInstr c .control 0 s, htchan, fun u hu => ?_⟩
  have htr : (s.regWrite c .control 0).inReset = false := (regWrite_inReset s c .control 0).trans hr
  have htc : ((s.regWrite c .control 0).chan c).complete = true := by rw [htchan]; exact hc
  have huchan : u.chan c = ((s.chan c).setReg .control 0).signalled := htchan ▸ exec_tick_of_complete htr htc hu
  have hzero : (u.chan c).win.control = 0 := by rw [huchan]; rfl
  have hun : (u.chan c).unconfigured = true := by rw [huchan]; exact signalled_unconfigured_iff.2 rfl
  refine ⟨hun, by rw [huchan, signalled_irq], by rw [huchan, signalled_offset, setReg_offset], fun v hv => ?_⟩
  rw [exec_tick_of_unconfigured ((exec_tick_inReset hu).trans htr) hun hv]
  exact ⟨latched_unconfigured_iff.2 hzero, rfl, rfl⟩

end Sys2Proof.Machine
end

section
/-! PROOFS. The upstream port (43_bus_sequencer.md R189, R190, R196, R197): the two transactions of an Active channel,
and what a step can add to the history. -/

namespace Sys2Proof.Machine

/-! ### The two transactions of an Active channel, taken by themselves -/

section
variable {s : State} {c : Chan}

/-- `UPRD` of an Active channel outside reset is its read, where that is not refused (43_bus_sequencer.md R189). -/
theorem exec_uprd_of_active (hr : s.inReset = false) (ha : (s.chan c).active = true)
    (hclear : s.refuses c (s.chan c).readAddr = false) :
    exec (.uprd c) s = .next (s.afterRead c (s.chan c).readAddr) :=
  (upRow_of_active hr ha).trans (upRead_eq_next.2 ⟨hclear, rfl⟩)

/-- `UPWR` of an Active channel outside reset is its write, where that is not refused (43_bus_sequencer.md R190). -/
theorem exec_upwr_of_active (hr : s.inReset = false) (ha : (s.chan c).active = true)
    (hclear : s.refuses c (s.chan c).writeAddr = false) (d : Quad) :
    exec (.upwr c d) s = .next (s.afterWrite c (s.chan c).writeAddr d) :=
  (upRow_of_active hr ha).trans (upWrite_eq_next.2 ⟨hclear, rfl⟩)

theorem openTurn_mem_of_no_turns (h : s.turns = []) : s.mem.applyOthers s.nextTurn.others = s.mem :=
  congrArg State.mem (openTurn_of_no_turns h)

/-- Settles O23: the row is the read of an Active channel, and memory after it is memory as the read finds it. -/
theorem upstreamReadReturnsTheMemorysBytes : Obligations.UpstreamReadReturnsTheMemorysBytes := by
  intro s c hr ha hmeets haccess
  have hexec := exec_uprd_of_active hr ha (refuses_eq_false.2 ⟨hmeets, haccess⟩)
  exact ⟨_, _, hexec, rfl, rfl, rfl, rfl, rfl, rfl, rfl, openTurn_mem_of_no_turns, fun hserved => if_pos hserved⟩

/-- The four bytes that a serviced write stores are the bytes of memory after it. -/
theorem afterWrite_stores (hwf : s.mem.wf = true) {a : Word} (hserved : s.services a = true) (d : Quad) :
    (s.afterWrite c a d).mem.readQuad a = d := by
  rw [afterWrite_mem, if_pos hserved]
  exact readQuad_writeQuad (applyOthers_wf hwf) a d

/-- A write, serviced or not, leaves every byte outside its four as other masters left it. -/
theorem afterWrite_byte_of_not_inQuad (hwf : s.mem.wf = true) {a x : Word} (d : Quad) (hx : ¬ inQuad a x) :
    (s.afterWrite c a d).mem.byte x = (s.mem.applyOthers s.nextTurn.others).byte x := by
  rw [afterWrite_mem]
  split
  · exact byte_writeQuad_of_not_inQuad (applyOthers_wf hwf) d hx
  · rfl

end

/-- Settles O24: the row is the write of an Active channel, and the four bytes read back there are those it stores. -/
theorem upstreamWriteStoresItsBytes : Obligations.UpstreamWriteStoresItsBytes := by
  intro s c d hwf hr ha hmeets haccess b m
  have hexec := exec_upwr_of_active hr ha (refuses_eq_false.2 ⟨hmeets, haccess⟩) d
  refine ⟨_, hexec, rfl, rfl, rfl, rfl, rfl, rfl, rfl, fun hserved => ?_, fun hunserved => ?_, fun x hx => ?_,
    openTurn_mem_of_no_turns⟩
  · have hquad : (s.afterWrite c b d).mem.readQuad b = d := afterWrite_stores hwf hserved d
    exact Quad.mk.inj hquad
  · exact if_neg (Bool.eq_false_iff.1 hunserved)
  · exact afterWrite_byte_of_not_inQuad hwf d hx

/-! ### What a step can add to the history -/

/-- The histories that grow out of `s` by events that are no upstream transaction and by whole pairs of channels Active
outside reset in `s`, each write right after the read of the bytes it carries. -/
inductive IssuedFrom (s : State) : List Event → Prop
  | start : IssuedFrom s s.history
  | other {e : Event} {h : List Event} (he : ∀ c, e.isUpOf c = false) (hh : IssuedFrom s h) : IssuedFrom s (e :: h)
  | pair {c : Chan} {h : List Event} (d : Quad) (hr : s.inReset = false) (ha : (s.chan c).active = true)
      (hh : IssuedFrom s h) :
      IssuedFrom s (.upWrite c (s.chan c).writeAddr d :: .upRead c (s.chan c).readAddr d :: h)

theorem issuedFrom_append {s : State} {es h : List Event} (hes : ∀ e ∈ es, ∀ c, e.isUpOf c = false)
    (hh : IssuedFrom s h) : IssuedFrom s (es ++ h) := by
  induction es with
  | nil => exact hh
  | cons e es ih =>
    obtain ⟨he, hrest⟩ := List.forall_mem_cons.1 hes
    exact .other he (ih hrest)

theorem irqEvents_not_up (c : Chan) (before after : Bool) :
    ∀ e ∈ irqEvents c before after, ∀ c', e.isUpOf c' = false := by
  unfold irqEvents
  split
  · nofun
  · exact List.forall_mem_singleton.2 fun _ => rfl

theorem resetEvents_not_up (s : State) : ∀ e ∈ resetEvents s, ∀ c, e.isUpOf c = false := by
  unfold resetEvents
  split
  · nofun
  · simp only [List.forall_mem_append, List.forall_mem_singleton]
    exact ⟨⟨irqEvents_not_up _ _ _, irqEvents_not_up _ _ _⟩, fun _ => rfl⟩

theorem regWrite_history (s : State) (c : Chan) (r : Reg) (v : Word) :
    (s.regWrite c r v).history = regWriteEvent s.cfg c r v :: s.history := by
  obtain ⟨-, h⟩ | ⟨-, h⟩ := regWrite_cases s c r v <;> simp [h]

/-- An evaluation of a channel that is as `s` has it issues the channel's pair where it is Active, and nothing upstream
elsewhere. Channel 2 is so when its turn comes within a tick. -/
theorem evalChannel_issuedFrom {s u t : State} {c : Chan} (hr : s.inReset = false) (hchan : u.chan c = s.chan c)
    (hu : IssuedFrom s u.history) (h : evalChannel c u = .next t) : IssuedFrom s t.history := by
  cases ha : (u.chan c).active
  · obtain ⟨-, rfl⟩ := (evalChannel_idle_eq_next ha).1 h
    rw [setChanIrq_history]
    exact issuedFrom_append (irqEvents_not_up _ _ _) hu
  · rw [evalChannel_active ha] at h
    rw [stepOp_history h, hchan]
    exact .pair _ hr (hchan ▸ ha) hu

/-- Outside the upstream class an operation issues whole pairs of Active channels. -/
theorem exec_issuedFrom {i : Instr} {s t : State} (hf : i.format ≠ .up) (h : exec i s = .next t) :
    IssuedFrom s t.history := by
  cases i using instr_by_family with
  | regWrite c r v =>
    rw [exec_wrInstr] at h
    cases h
    rw [regWrite_history]
    exact .other (fun _ => rfl) .start
  | wrNop off data => cases h; exact .other (fun _ => rfl) .start
  | rd addr len => cases h; exact .other (fun _ => rfl) .start
  | tick =>
    obtain ⟨-, rfl⟩ | ⟨hr, u, h1, h2⟩ := execTick_eq_next.1 h
    · exact .start
    · obtain ⟨-, hother, -⟩ := evalChannel_regs h1
      exact evalChannel_issuedFrom hr (hother .ch2 nofun) (evalChannel_issuedFrom hr rfl .start h1) h2
  | row c op =>
    rw [exec_tickInstr] at h
    obtain ⟨hr, -, h1⟩ | ⟨-, rfl⟩ := rowOp_eq_next.1 h
    · exact evalChannel_issuedFrom hr rfl .start h1
    · exact .start
  | resetAssert => cases h; exact issuedFrom_append (resetEvents_not_up s) .start
  | resetRelease =>
    cases h
    unfold State.releaseReset
    cases s.inReset
    · exact .start
    · exact .other (fun _ => rfl) .start
  | uprd c => exact absurd rfl hf
  | upwr c d => exact absurd rfl hf

/-! ### A step performs no upstream operation by itself -/

/-- The decoder keeps the class of a frame (30_encoding.md R80). -/
@[simp] theorem format_decode (cfg : Config) (f : Frame) : (decode cfg f).format = f.format := by
  cases f with
  | write addr data =>
    rw [decode]
    obtain ⟨c, r, d, hoff, rfl⟩ | hnop := downstreamWrite_cases (addr - cfg.dmaBase) data
    · rw [hoff, decodeWrite_regOffset, format_wrInstr]
      rfl
    · rw [decodeWrite_of_wf_wrNop _ hnop]
      rfl
  | select c sel => exact format_tickInstr c _
  | resetLine level => cases level <;> rfl
  | read addr len => rfl
  | tick => rfl
  | upRead c => rfl
  | upWrite c d => rfl

/-- No agent presents an upstream transaction: the block emits it (00_scope.md R12, 43_bus_sequencer.md R197). -/
theorem nextInstr_not_up (s : State) : s.nextInstr.format ≠ .up := by
  rw [State.nextInstr, format_decode, State.nextFrame]
  split
  · nofun
  next x _ _ => cases x <;> nofun

/-- A step issues whole pairs of channels that are Active outside reset as it begins. -/
theorem step_issuedFrom {s t : State} (h : step s = .next t) : IssuedFrom s.takeInput t.history :=
  exec_issuedFrom (nextInstr_not_up s) h

/-! ### The trace law -/

theorem pairedHistory_cons_of_not_up {e : Event} (he : ∀ c, e.isUpOf c = false) (h : List Event) :
    pairedHistory (e :: h) = pairedHistory h := by
  cases e with
  | upWrite c a d => simpa [Event.isUpOf] using he c
  | dnWrite | dnRead | upRead | irq | resetAssert | resetRelease => rfl

/-- A pair put in front of a paired history leaves it paired. -/
theorem pairedHistory_pair (c : Chan) (a b : Word) (d : Quad) (h : List Event) :
    pairedHistory (.upWrite c b d :: .upRead c a d :: h) = pairedHistory h := by
  simp [pairedHistory, newestIsRead]

theorem pairedHistory_of_issuedFrom {s : State} {h : List Event} (hs : pairedHistory s.history = true)
    (hh : IssuedFrom s h) : pairedHistory h = true := by
  induction hh with
  | start => exact hs
  | other he _ ih => rwa [pairedHistory_cons_of_not_up he]
  | pair d _ _ _ ih => rwa [pairedHistory_pair]

/-- Settles O37: a step adds whole pairs, each write right after its own channel's read of the bytes it carries. -/
theorem everyStepKeepsTheTraceLaw : Obligations.EveryStepKeepsTheTraceLaw :=
  fun s _ hs h => pairedHistory_of_issuedFrom (s := s.takeInput) hs (step_issuedFrom h)

/-! ### Whose transactions a step issues -/

/-- If the event is an upstream transaction, it is one of a channel Active outside reset in `s`, at that channel's read or
write address (43_bus_sequencer.md R189, R190, R197). -/
def State.mayIssue (s : State) : Event → Prop
  | .upRead c a _ => s.inReset = false ∧ (s.chan c).active = true ∧ a = (s.chan c).readAddr
  | .upWrite c a _ => s.inReset = false ∧ (s.chan c).active = true ∧ a = (s.chan c).writeAddr
  | _ => True

theorem mayIssue_of_not_up {e : Event} (he : ∀ c, e.isUpOf c = false) (s : State) : s.mayIssue e := by
  cases e with
  | upRead c a d => simpa [Event.isUpOf] using he c
  | upWrite c a d => simpa [Event.isUpOf] using he c
  | dnWrite | dnRead | irq | resetAssert | resetRelease => trivial

theorem mayIssue_of_issuedFrom {s : State} {h : List Event} (hh : IssuedFrom s h) :
    ∃ new, h = new ++ s.history ∧ ∀ e ∈ new, s.mayIssue e := by
  induction hh with
  | start => exact ⟨[], rfl, nofun⟩
  | other he _ ih =>
    obtain ⟨new, rfl, hnew⟩ := ih
    exact ⟨_ :: new, rfl, List.forall_mem_cons.2 ⟨mayIssue_of_not_up he s, hnew⟩⟩
  | pair d hr ha _ ih =>
    obtain ⟨new, rfl, hnew⟩ := ih
    exact ⟨_ :: _ :: new, rfl,
      List.forall_mem_cons.2 ⟨⟨hr, ha, rfl⟩, List.forall_mem_cons.2 ⟨⟨hr, ha, rfl⟩, hnew⟩⟩⟩

/-- Settles O25: the pairs a step adds are those of Active channels, at the addresses the channels have as it begins. -/
theorem upstreamTrafficOnlyFromActiveChannels : Obligations.UpstreamTrafficOnlyFromActiveChannels := by
  intro s t h
  obtain ⟨new, hhistory, hnew⟩ := mayIssue_of_issuedFrom (step_issuedFrom h)
  refine ⟨new, hhistory, fun c a d hmem => ?_, fun c a d hmem => ?_⟩
  · simpa [State.mayIssue, Channel.readAddr] using hnew _ hmem
  · simpa [State.mayIssue, Channel.writeAddr] using hnew _ hmem

end Sys2Proof.Machine
end

section
/-! PROOFS. Where a step stops (60_exceptions.md R210, 20_memory.md R68): outside the upstream class an operation answers a
state or is refused for a channel whose evaluation does not keep off the block's own window. -/

namespace Sys2Proof.Machine

/-- An evaluation that does not keep off the window is an Active channel's, for its configuration or one of its two
accesses, or an Unconfigured channel's, for the configuration its LATCH would arm (20_memory.md R68, log 11). -/
theorem not_stepClear_iff {s : State} {c : Chan} :
    ¬ s.stepClear c ↔
      ((s.chan c).active = true ∧
        ((s.chan c).eng.meetsWindow s.cfg = true ∨
          touchesWindow s.cfg (s.chan c).readAddr = true ∨ touchesWindow s.cfg (s.chan c).writeAddr = true)) ∨
      ((s.chan c).unconfigured = true ∧ (s.chan c).win.control ≠ 0 ∧
        (s.chan c).latched.eng.meetsWindow s.cfg = true) := by
  simp only [State.stepClear, Classical.not_and_iff_not_or_not, Classical.not_imp, Bool.not_eq_false]

/-- Every operation but an upstream row answers a state, or it is refused outside reset for a channel whose evaluation does
not keep off the window: only the tick and the tick rows evaluate a channel. -/
theorem exec_answers_or_refused {i : Instr} (hf : i.format ≠ .up) (s : State) :
    (∃ t, exec i s = .next t) ∨
      (exec i s = .refused .ownWindow ∧ s.inReset = false ∧ ∃ c, ¬ s.stepClear c) := by
  cases i using instr_by_family with
  | regWrite c r v => exact .inl ⟨_, exec_wrInstr c r v s⟩
  | wrNop | rd | resetAssert | resetRelease => exact .inl ⟨_, rfl⟩
  | tick =>
    cases hr : s.inReset
    · by_cases h : ∀ c, s.stepClear c
      · exact .inl (exec_tick_answers hr h)
      · obtain ⟨c, hc⟩ := Classical.not_forall.1 h
        exact .inr ⟨exec_tick_refused hr hc, rfl, c, hc⟩
    · exact .inl ⟨s, tickInResetChangesNothing s hr⟩
  | row c op =>
    by_cases hrow : s.inReset = false ∧ s.selected c = op
    · obtain ⟨hr, hop⟩ := hrow
      rw [exec_selected_row hr hop]
      by_cases hc : s.stepClear c
      · exact .inl (evalChannel_answers_iff.2 hc)
      · exact .inr ⟨evalChannel_refused hc, hr, c, hc⟩
    · exact .inl ⟨s, (exec_tickInstr c op s).trans (rowOp_eq_next.2 (.inr ⟨hrow, rfl⟩))⟩
  | uprd | upwr => exact absurd rfl hf

/-- Settles O9: a step performs no upstream row by itself, and taking the stimulus changes neither the channels nor the
parameters, so a refusal is for an evaluation that does not keep off the window in the state the step begins in. -/
theorem stepStopsOnlyAtTheOwnWindow : Obligations.StepStopsOnlyAtTheOwnWindow := by
  intro s
  refine (exec_answers_or_refused (nextInstr_not_up s) s.takeInput).imp_right ?_
  rintro ⟨hrefused, hr, c, hc⟩
  exact ⟨hrefused, hr, c, not_stepClear_iff.1 hc⟩

end Sys2Proof.Machine
end

section
/-! PROOFS. Reset and hazards (70_reset_and_hazards.md R240, R242, R248, R258): the two reset events, the channels that
an evaluation leaves as they are, the lost acknowledge, and the ticks of a quiescent block. -/

namespace Sys2Proof.Machine

/-! ### The two reset events -/

/-- A line that falls or stays low does not rise. -/
theorem irqEvents_false_ne_rise (c : Chan) (before : Bool) :
    ∀ e ∈ irqEvents c before false, ∀ c', e ≠ .irq c' true := by
  unfold irqEvents
  split
  · nofun
  · exact List.forall_mem_singleton.2 nofun

theorem resetEvents_ne_rise (s : State) : ∀ e ∈ resetEvents s, ∀ c, e ≠ .irq c true := by
  unfold resetEvents
  split
  · nofun
  · simp only [List.forall_mem_append, List.forall_mem_singleton]
    exact ⟨⟨irqEvents_false_ne_rise _ _, irqEvents_false_ne_rise _ _⟩, nofun⟩

/-- Settles O32: the events of the assertion are the reset line's and the fall of lines that were true. -/
theorem resetAssertZeroesBothChannels : Obligations.ResetAssertZeroesBothChannels :=
  fun s => ⟨resetEvents s, rfl, fun e he c => ⟨resetEvents_not_up s e he c, resetEvents_ne_rise s e he c⟩⟩

/-- Settles O33: by the invariant the channels in reset are the reset channels, which the release leaves and a tick as
well. -/
theorem resetReleaseOnlyClearsInReset : Obligations.ResetReleaseOnlyClearsInReset := by
  refine ⟨fun _ => rfl, fun s hinv hr => ?_⟩
  obtain ⟨-, -, hreset, -, -⟩ := hinv
  obtain ⟨h1, h2⟩ := hreset hr
  exact ⟨s.releaseReset, rfl, h1, h2, rfl, tick_of_reset_channels h1 h2⟩

/-! ### Channels that an evaluation leaves as they are -/

section
variable {ch : Channel}

/-- The SIGNAL of a Complete channel whose line is true and whose CONTROL is not 0 changes nothing
(41_transfer_engine.md R148, R159). -/
theorem evaluated_of_signalling (hc : ch.complete = true) (hirq : ch.irq = true) (hcontrol : ch.win.control ≠ 0) :
    ch.evaluated = ch := by
  obtain ⟨hctrl, -⟩ := complete_iff_size_le.1 hc
  have hflag : nonzero ch.win.control = ch.eng.ctrl := (bne_iff_ne.2 hcontrol).trans hctrl.symm
  rw [evaluated_of_complete hc, Channel.signalled, hflag, ← hirq]

/-- A LATCH that finds CONTROL 0 leaves the next LATCH nothing to change. -/
theorem evaluated_latched_of_control_zero (h : ch.win.control = 0) : ch.latched.evaluated = ch.latched :=
  evaluated_of_unconfigured (latched_unconfigured_iff.2 h)

end

/-- A channel that an evaluation leaves as it is stays so through any number of ticks. -/
theorem ticks_chan_of_evaluated_eq_self {k : Nat} {s t : State} {c : Chan} (hr : s.inReset = false)
    (hfix : (s.chan c).evaluated = s.chan c) (h : ticks k s = .next t) : t.chan c = s.chan c := by
  induction k generalizing s with
  | zero => cases h; rfl
  | succ k ih =>
    obtain ⟨u, hu, ht⟩ := ticks_succ_eq_next.1 h
    have hchan : u.chan c = s.chan c := (exec_tick_chan hr hu c).trans hfix
    exact (ih ((exec_tick_inReset hu).trans hr) (by rw [hchan, hfix]) ht).trans hchan

/-! ### The lost acknowledge -/

/-- Settles O48: both writes are accepted and the second overwrites the first, so the engine never sees CONTROL 0 and
every tick is a SIGNAL that changes nothing. -/
theorem rearmingWithoutATickLosesTheAcknowledge : Obligations.RearmingWithoutATickLosesTheAcknowledge := by
  intro s t u w c v k hr hc hirq hv h1 h2 hticks
  rw [exec_wrInstr] at h1 h2
  cases h1
  cases h2
  obtain ⟨-, ha⟩ := complete_iff.1 hc
  have hr1 : (s.regWrite c .control 0).inReset = false := (regWrite_inReset s c .control 0).trans hr
  have hr2 := (regWrite_inReset (s.regWrite c .control 0) c .control v).trans hr1
  have hchan : ((s.regWrite c .control 0).regWrite c .control v).chan c = (s.chan c).setReg .control v := by
    rw [regWrite_chan_self hr1 ((regWrite_chan_active ..).trans ha), regWrite_chan_self hr ha]
    rfl
  have hcomplete : ((s.chan c).setReg .control v).complete = true := hc
  have hfix : ((s.chan c).setReg .control v).evaluated = (s.chan c).setReg .control v :=
    evaluated_of_signalling hcomplete hirq hv
  have hw : w.chan c = (s.chan c).setReg .control v :=
    (ticks_chan_of_evaluated_eq_self hr2 (by rw [hchan, hfix]) hticks).trans hchan
  rw [hw]
  exact ⟨hcomplete, hirq, rfl, rfl, rfl⟩

/-! ### A quiescent channel -/

/-- One channel's part of quiescence (70_reset_and_hazards.md R258). -/
def Channel.quiescent (ch : Channel) : Prop := ch.active = false ∧ ¬ ch.waiting

theorem quiescent_iff {s : State} : s.quiescent ↔ ∀ c, (s.chan c).quiescent := Iff.rfl

section
variable {ch : Channel}

/-- An evaluation of a channel that is not Active is a LATCH or a SIGNAL. -/
theorem evaluated_cases_of_not_active (ha : ch.active = false) :
    (ch.unconfigured = true ∧ ch.evaluated = ch.latched) ∨ (ch.complete = true ∧ ch.evaluated = ch.signalled) := by
  cases hu : ch.unconfigured
  · have hc := complete_iff.2 ⟨hu, ha⟩
    exact .inr ⟨hc, evaluated_of_complete hc⟩
  · exact .inl ⟨rfl, evaluated_of_unconfigured hu⟩

/-- LATCH and SIGNAL both load the control flag with the truth of CONTROL (41_transfer_engine.md R142, R146). -/
theorem evaluated_ctrl_of_not_active (ha : ch.active = false) : ch.evaluated.eng.ctrl = nonzero ch.win.control := by
  obtain ⟨-, he⟩ | ⟨-, he⟩ := evaluated_cases_of_not_active ha <;> rw [he] <;> rfl

/-- SIGNAL starts no transfer: the offset stays at or past SIZE. -/
theorem signalled_not_active (hc : ch.complete = true) : ch.signalled.active = false := by
  obtain ⟨-, hsize⟩ := complete_iff_size_le.1 hc
  exact Bool.eq_false_iff.2 fun ha => absurd (active_iff.1 ha).2 (BitVec.not_lt.2 hsize)

/-- The evaluation of a quiescent channel leaves it quiescent: no LATCH of it starts a transfer, and the control flag it
loads is that of CONTROL. -/
theorem evaluated_quiescent (h : ch.quiescent) : ch.evaluated.quiescent := by
  obtain ⟨ha, hwait⟩ := h
  constructor
  · obtain ⟨hu, he⟩ | ⟨hc, he⟩ := evaluated_cases_of_not_active ha <;> rw [he]
    · refine Bool.eq_false_iff.2 fun hact => hwait ?_
      obtain ⟨hcontrol, hsize⟩ := latched_active_iff.1 hact
      exact ⟨hu, hcontrol, hsize⟩
    · exact signalled_not_active hc
  · rintro ⟨hu, hcontrol, -⟩
    rw [unconfigured_iff, evaluated_ctrl_of_not_active ha] at hu
    rw [evaluated_win] at hcontrol
    exact hcontrol (by simpa [nonzero] using hu)

/-- A channel at rest whose control flag is that of CONTROL stands still after one evaluation: with CONTROL 0 that is a
LATCH of nothing, otherwise the SIGNAL of a Complete channel that stays Complete. -/
theorem evaluated_evaluated_of_ctrl_eq (ha : ch.active = false) (hctrl : ch.eng.ctrl = nonzero ch.win.control) :
    ch.evaluated.evaluated = ch.evaluated := by
  obtain ⟨hu, he⟩ | ⟨hc, he⟩ := evaluated_cases_of_not_active ha <;> rw [he]
  · have hzero : ch.win.control = 0 := by simpa [unconfigured_iff, hctrl, nonzero] using hu
    exact evaluated_latched_of_control_zero hzero
  · have hcontrol : ch.win.control ≠ 0 := by simpa [hctrl, nonzero] using (complete_iff_size_le.1 hc).1
    exact evaluated_of_signalling ((signalled_complete_iff hc).2 hcontrol) rfl hcontrol

/-- A quiescent channel stands still after two evaluations: the first makes the control flag that of CONTROL. -/
theorem evaluated_thrice_of_quiescent (h : ch.quiescent) :
    ch.evaluated.evaluated.evaluated = ch.evaluated.evaluated := by
  obtain ⟨ha', -⟩ := evaluated_quiescent h
  obtain ⟨ha, -⟩ := h
  exact evaluated_evaluated_of_ctrl_eq ha' (by rw [evaluated_ctrl_of_not_active ha, evaluated_win])

end

/-! ### The ticks of a quiescent block -/

/-- A transfer of SIZE 0 has no address, so none in the window. -/
theorem meetsWindow_of_size_zero (cfg : Config) {e : Engine} (h : e.size = 0) : e.meetsWindow cfg = false := by
  have hlen : e.length = 0 := by simp [Engine.length, h]
  simp [Engine.meetsWindow, rangeMeetsWindow, hlen]

/-- The evaluation of a quiescent channel keeps off the window: if its LATCH arms a transfer, it is one of SIZE 0. -/
theorem stepClear_of_quiescent {s : State} {c : Chan} (h : (s.chan c).quiescent) : s.stepClear c := by
  obtain ⟨ha, hwait⟩ := h
  refine ⟨fun hact => absurd (hact.symm.trans ha) nofun, fun hu hcontrol => meetsWindow_of_size_zero _ ?_⟩
  exact Classical.not_not.1 fun hsize => hwait ⟨hu, hcontrol, hsize⟩

theorem evalChannel_mem_of_not_active {s t : State} {c : Chan} (ha : (s.chan c).active = false)
    (h : evalChannel c s = .next t) : t.mem = s.mem := by
  obtain ⟨-, rfl⟩ := (evalChannel_idle_eq_next ha).1 h
  exact setChanIrq_mem _ _ _

/-- A tick that finds no channel Active leaves memory, whatever other masters would do at a transaction. -/
theorem exec_tick_mem_of_not_active {s t : State} (ha : ∀ c, (s.chan c).active = false)
    (h : exec .tick s = .next t) : t.mem = s.mem := by
  obtain ⟨-, rfl⟩ | ⟨-, u, h1, h2⟩ := execTick_eq_next.1 h
  · rfl
  · obtain ⟨-, hother, -⟩ := evalChannel_regs h1
    have ha2 : (u.chan .ch2).active = false := by rw [hother .ch2 nofun]; exact ha .ch2
    exact (evalChannel_mem_of_not_active ha2 h2).trans (evalChannel_mem_of_not_active (ha .ch1) h1)

/-- One tick of a quiescent block outside reset: it completes, evaluates each channel, leaves memory, issues nothing,
and the block stays quiescent. -/
theorem exec_tick_of_quiescent {s : State} (hr : s.inReset = false) (hq : s.quiescent) :
    ∃ t, exec .tick s = .next t ∧ t.inReset = false ∧ t.quiescent ∧ (∀ c, t.chan c = (s.chan c).evaluated) ∧
      t.mem = s.mem ∧ ∀ c, upAddrs c t.history = upAddrs c s.history := by
  obtain ⟨t, ht⟩ := exec_tick_answers hr fun c => stepClear_of_quiescent (hq c)
  have hchan := exec_tick_chan hr ht
  have hidle (c : Chan) : (s.chan c).active = false := (hq c).1
  refine ⟨t, ht, (exec_tick_inReset ht).trans hr, quiescent_iff.2 fun c => ?_, hchan,
    exec_tick_mem_of_not_active hidle ht, fun c => ?_⟩
  · rw [hchan]
    exact evaluated_quiescent (hq c)
  · rw [exec_tick_upAddrs hr ht, pairAddrs_of_not_active (hidle c), List.nil_append]

/-- Settles O49: three ticks of a quiescent block, the third of which evaluates channels that stand still. -/
theorem quiescentBlockReachesAFixedPoint : Obligations.QuiescentBlockReachesAFixedPoint := by
  intro s hr hq
  obtain ⟨t, ht, hrt, hqt, hchant, hmemt, hupt⟩ := exec_tick_of_quiescent hr hq
  obtain ⟨u, hu, hru, hqu, hchanu, hmemu, hupu⟩ := exec_tick_of_quiescent hrt hqt
  obtain ⟨v, hv, -, hqv, hchanv, hmemv, hupv⟩ := exec_tick_of_quiescent hru hqu
  have hstill (c : Chan) : v.chan c = u.chan c := by
    rw [hchanv, hchanu, hchant, evaluated_thrice_of_quiescent (hq c)]
  exact ⟨t, u, v, ht, hu, hv, hstill .ch1, hstill .ch2, hmemv.trans (hmemu.trans hmemt), hqv,
    fun c => (hupv c).trans ((hupu c).trans (hupt c))⟩

end Sys2Proof.Machine
end

section
/-! PROOFS. The rows that are not performed (log 5): a tick row that the channel's state does not select, and an
upstream row of a channel that is not Active, leave the state, as every row does in reset. -/

namespace Sys2Proof.Machine

/-! ### The logical state that selects each row -/

section
variable {s : State} {c : Chan}

theorem selected_eq_latch_iff : s.selected c = .latch ↔ (s.chan c).unconfigured = true := by
  refine ⟨fun h => ?_, selected_of_unconfigured⟩
  rw [selected_eq] at h
  split at h
  next hu => exact hu
  next => split at h <;> contradiction

theorem selected_eq_step_iff : s.selected c = .step ↔ (s.chan c).active = true := by
  refine ⟨fun h => ?_, selected_of_active⟩
  rw [selected_eq] at h
  split at h
  next => contradiction
  next =>
    split at h
    next ha => exact ha
    next => contradiction

theorem selected_eq_signal_iff : s.selected c = .signal ↔ (s.chan c).complete = true := by
  refine ⟨fun h => complete_iff.2 ⟨?_, ?_⟩, selected_of_complete⟩
  · exact Bool.eq_false_iff.2 fun hu => nomatch (selected_of_unconfigured hu).symm.trans h
  · exact Bool.eq_false_iff.2 fun ha => nomatch (selected_of_active ha).symm.trans h

/-! ### Rows given in reset or where the channel's state does not select them -/

theorem exec_unselected_row {op : TickOp} (h : s.inReset = true ∨ s.selected c ≠ op) :
    exec (tickInstr c op) s = .next s := by
  have hrow : ¬ (s.inReset = false ∧ s.selected c = op) := by
    rintro ⟨hr, hop⟩
    exact h.elim (Bool.eq_false_iff.1 hr) (absurd hop)
  exact (exec_tickInstr c op s).trans (rowOp_eq_next.2 (.inr ⟨hrow, rfl⟩))

theorem upRow_of_not_performed {o : State → Host.Outcome State Fault Refusal}
    (h : s.inReset = true ∨ (s.chan c).active = false) : upRow c o s = .next s := by
  have hrow : ¬ (s.inReset = false ∧ (s.chan c).active = true) := by
    rintro ⟨hr, ha⟩
    exact h.elim (Bool.eq_false_iff.1 hr) (Bool.eq_false_iff.1 · ha)
  exact upRow_eq_next.2 (.inr ⟨hrow, rfl⟩)

end

/-- Settles O21: each tick row is selected by one logical state alone, and both upstream rows need an Active channel. -/
theorem unselectedRowsAreNotPerformed : Obligations.UnselectedRowsAreNotPerformed := by
  intro s c
  refine ⟨fun h => ?latch, fun h => ?step, fun h => ?signal, fun h => ?uprd, fun h d => ?upwr⟩
  case latch => exact exec_unselected_row (h.imp_right fun hu => mt selected_eq_latch_iff.1 (Bool.eq_false_iff.1 hu))
  case step => exact exec_unselected_row (h.imp_right fun ha => mt selected_eq_step_iff.1 (Bool.eq_false_iff.1 ha))
  case signal => exact exec_unselected_row (h.imp_right fun hc => mt selected_eq_signal_iff.1 (Bool.eq_false_iff.1 hc))
  case uprd => exact upRow_of_not_performed h
  case upwr => exact upRow_of_not_performed h

end Sys2Proof.Machine
end
